-- ==== Sys2Proof/Word.lean ====
section
/-!
DEFINITION. The data types the spec computes with: 32-bit words, bytes and 64-bit buffer addresses
(00_scope.md R8, R12; 20_memory.md R60). All values are unsigned. The arithmetic on them stands in
Machine/Bits.lean.
-/

namespace Sys2Proof

/-- A word: a 32-bit unsigned integer, bit 0 the least significant (00_scope.md R8, R12). -/
abbrev Word := BitVec 32

/-- A byte of the buffer address space (20_memory.md R60). -/
abbrev Byte := BitVec 8

/-- A buffer address or a buffer length: `ADDRW` = 64 bits (00_scope.md R10; 92_eei_decisions.md D10). -/
abbrev Addr := BitVec 64

end Sys2Proof
end

