-- ==== Sys2Proof/Config.lean ====
section
/-!
DEFINITION. What an implementation of the block fixes and the spec leaves OPEN (00_scope.md R10, 10_state.md
R53, 92_eei_decisions.md "Open parameters, collected"), each as a constant with no body, so that a theorem
holds for every value of it: `MIX_CONST`, `DIFFUSE_PASSES`, `CAP128`, `CAP256`, `CAP512`; and the free choice
of the race of 20_memory.md R75. `ADDRW` is fixed to 64 (D10) and `BYTE_ORDER` to little (D3). `Backed` is the
set of addresses that the memory of `State` lists (notes/assumptions/5.md).

`DIFFUSE_PASSES` is open as a PROGRAM of word operations and not as an arbitrary function, because 45_finalizer.md
R203 (a) to (d) fixes what every instantiation is built from: the types of such programs are here, their
meaning is `Machine/Finalizer.lean`.
-/

namespace Sys2Proof

/-- Where a word operation of a diffusion pass reads or writes: word `i` of lane `l + 1`, or a temporary.
A program may name a word with `i ≥ N`: such a slot reads as 0 and drops what is written (R203 (a): the passes
are a function of the 4N lane words and of N). -/
inductive Slot where
  | word (l : Fin 4) (i : Fin 64)
  | temp (k : Nat)
deriving DecidableEq, Repr, Inhabited

/-- One operation of a diffusion pass (45_finalizer.md R203 (b): the passes are built from `add32` and `mix1`
only; `copy` moves a word and computes nothing). There is no branch and no other operation. -/
inductive DiffuseOp where
  /-- `dst <- add32(dst, src)` -/
  | accumulate (dst src : Slot)
  /-- `dst <- src` -/
  | copy (dst src : Slot)
  /-- `H[l+1][i] <- mix1(H[l+1][i])`, the one application of the pass to this word -/
  | mixWord (l : Fin 4) (i : Fin 64)
deriving DecidableEq, Repr, Inhabited

/-- The two accumulation passes of 45_finalizer.md R203 (c). A word that a pass does not mix itself is mixed
at the end of the pass, and a second `mixWord` of the same word in one pass does nothing: so `mix1` is applied
exactly once to each of the 4N words in each pass, whatever the lists hold. -/
structure DiffuseProgram where
  pass1 : List DiffuseOp
  pass2 : List DiffuseOp
deriving DecidableEq, Repr, Inhabited

namespace Config

/-- `MIX_CONST`, the default second operand of `mix`: OPEN, any 32-bit word
(41_wordmix.md R121; 92_eei_decisions.md D2). -/
opaque mixConst : Word

/-- `DIFFUSE_PASSES`, the diffusion passes for each N: OPEN under 45_finalizer.md R203 (a) to (d)
(92_eei_decisions.md D5). -/
opaque diffuseProgram : Nat → DiffuseProgram

/-- `CAP128`, "supportsWidth128()": OPEN, constant (10_state.md R44; 92_eei_decisions.md D19). -/
opaque cap128 : Bool

/-- `CAP256`, "supportsWidth256()": OPEN, constant; nothing is assumed about its relation to the others. -/
opaque cap256 : Bool

/-- `CAP512`, "supportsWidth512()": OPEN, constant. -/
opaque cap512 : Bool

/-- Which of the values that a byte held while a HASH was in progress the engine's one read of it returns
(20_memory.md R75: "both values admitted"): a free value for each HASH (the first argument counts accepted
HASH commands) and each address. -/
opaque raceChoice : Nat → Nat → Nat

end Config

end Sys2Proof
end

