-- ==== Sys2Proof/Syntax.lean ====
section
/-!
DEFINITION. The whole syntax: the instructions of spec/opcode_table.json (three commands, eight phase steps;
30_encoding.md R92, R93), the code by which each is selected, the registers of the map of 10_state.md R26, and
the host's actions on the block (the scripts of 30_encoding.md R97, reset, and the host's stores to its own
buffer memory).
-/

namespace Sys2Proof

/-- The instructions, one constructor per row of spec/opcode_table.json. None has an operand field: every
operand is an implicit register (30_encoding.md R94). -/
inductive Instr where
  /-- MIX, command word 0x00000001 (41_wordmix.md R125) -/
  | mix
  /-- MIXC, command word 0x00000002 (41_wordmix.md R126) -/
  | mixc
  /-- HASH, command word 0x00000010 (44_block_driver.md R170) -/
  | hash
  /-- SELTIER, phase code 1 (46_tier_selector.md R233) -/
  | seltier
  /-- SEEDX, phase code 2 (42_seed_expansion.md R140) -/
  | seedx
  /-- CONSUME, phase code 3 (44_block_driver.md R177) -/
  | consume
  /-- DRAIN, phase code 4 (44_block_driver.md R178) -/
  | drain
  /-- DIFFUSE, phase code 5 (45_finalizer.md R200) -/
  | diffuse
  /-- FOLD, phase code 6 (45_finalizer.md R208) -/
  | fold
  /-- HALVE, phase code 7 (45_finalizer.md R212) -/
  | halve
  /-- EMIT, phase code 8 (45_finalizer.md R216) -/
  | emit
deriving DecidableEq, Repr

/-- What selects an instruction: a command word written to `CMD` (format C, 30_encoding.md R90) or the 4-bit
code of `STATUS.PHASE` (format PHASE, 30_encoding.md R93). -/
inductive Code where
  | command (c : Word)
  | phase (p : BitVec 4)
deriving DecidableEq, Repr

/-- The registers of the map of 10_state.md R26. `reserved` stands for every offset that names none. -/
inductive Reg where
  | cmd | status | seed | width | tierreq | buflo | bufhi | lenlo | lenhi | opa | opb | res | cap
  | digest (k : Fin 32)
  | reserved
deriving DecidableEq, Repr

/-- One action at the block's boundary, in the order in which it takes effect (20_memory.md R74 (c)). -/
inductive Event where
  /-- the engine takes its next phase step, if it has one (70_reset_and_hazards.md R288) -/
  | engine
  /-- the host writes `value` to the register at byte offset `offset`, with an access of `size` bytes -/
  | write (offset size : Nat) (value : Word)
  /-- the host reads `size` bytes at byte offset `offset` -/
  | read (offset size : Nat)
  /-- the pseudo-instruction `wait`: the host reads STATUS until BUSY = 0 (30_encoding.md R98) -/
  | wait
  /-- the end of the pseudo-instruction `hash`: if the host's last read was a STATUS with RESULT = 1, it reads
  `DIGEST[0]` to `DIGEST[width/32 - 1]`; otherwise no digest is returned (30_encoding.md R98) -/
  | collect (width : Word)
  /-- the host stores a byte in its own buffer memory (20_memory.md R74, R75) -/
  | store (address : Nat) (value : Byte)
  /-- the input `RST` is asserted and released (70_reset_and_hazards.md R280) -/
  | rst
deriving DecidableEq, Repr

end Sys2Proof
end

