-- ==== Sys2Proof/WellFormed.lean ====
section
/-!
DEFINITION. The checks on syntax. An instruction has no operand field, so every instruction is well-formed
(30_encoding.md R94). What can be ill-formed is a host access: "The only access the interface defines is an
aligned 32-bit read or an aligned 32-bit write of one register" (10_state.md R26); and a host store, whose
address must lie in the 64-bit buffer address space (20_memory.md R60).
-/

namespace Sys2Proof

/-- An access of 4 bytes at an offset that is a multiple of 4 (10_state.md R26). -/
def accessWellFormed (offset size : Nat) : Bool :=
  size == 4 && offset % 4 == 0

/-- No instruction has an operand field that could be ill-formed (30_encoding.md R94). -/
def Instr.wellFormed : Instr → Bool
  | .mix | .mixc | .hash | .seltier | .seedx | .consume | .drain | .diffuse | .fold | .halve | .emit => true

/-- The host action is one the interface defines. -/
def Event.wellFormed : Event → Bool
  | .engine => true
  | .write offset size _ => accessWellFormed offset size
  | .read offset size => accessWellFormed offset size
  | .wait => true
  | .collect _ => true
  | .store address _ => decide (address < 2 ^ 64)
  | .rst => true

end Sys2Proof
end

