-- ==== Sys2Proof/Decode.lean ====
section
/-!
DEFINITION. The decoder: total on every 32-bit command word and every 4-bit phase code, rejecting by name
(30_encoding.md R91, R93, R95; 10_state.md R34), the register map of 10_state.md R26, and after them the
encoder.
-/

namespace Sys2Proof

/-- Why a code names no instruction. -/
inductive Reject where
  /-- bits 31:8 of a command word are not 0 (30_encoding.md R91) -/
  | reservedBits
  /-- bits 7:0 of a command word are in no row of the opcode map (30_encoding.md R91, R92) -/
  | unknownOpcode
  /-- phase code 0: "none: waiting for a command" (10_state.md R34) -/
  | idlePhase
  /-- phase codes 9 to 14: "reserved" (10_state.md R34) -/
  | reservedPhase
  /-- phase code 15: "no step; only reset leaves it" (10_state.md R34) -/
  | fatalPhase
deriving DecidableEq, Repr

/-- `OPC`, bits 7:0 of a command word (30_encoding.md R90). -/
def opcodeField (c : Word) : BitVec 8 := c.extractLsb' 0 8

/-- `RSV`, bits 31:8 of a command word (30_encoding.md R90). -/
def reservedField (c : Word) : BitVec 24 := c.extractLsb' 8 24

/-- Decoding a command word (30_encoding.md R91, R92). -/
def decodeCommand (c : Word) : Except Reject Instr :=
  if reservedField c ≠ 0#24 then .error .reservedBits
  else if opcodeField c = 0x01#8 then .ok .mix
  else if opcodeField c = 0x02#8 then .ok .mixc
  else if opcodeField c = 0x10#8 then .ok .hash
  else .error .unknownOpcode

/-- Decoding a phase code (30_encoding.md R93; 10_state.md R34). -/
def decodePhase (p : BitVec 4) : Except Reject Instr :=
  if p = 0#4 then .error .idlePhase
  else if p = 1#4 then .ok .seltier
  else if p = 2#4 then .ok .seedx
  else if p = 3#4 then .ok .consume
  else if p = 4#4 then .ok .drain
  else if p = 5#4 then .ok .diffuse
  else if p = 6#4 then .ok .fold
  else if p = 7#4 then .ok .halve
  else if p = 8#4 then .ok .emit
  else if p = 15#4 then .error .fatalPhase
  else .error .reservedPhase

/-- The decoder: a command word and a phase code are two encoding spaces (30_encoding.md R92, R93). -/
def decode : Code → Except Reject Instr
  | .command c => decodeCommand c
  | .phase p => decodePhase p

/-- The register at a byte offset (10_state.md R26). An offset that is no multiple of 4 is never looked up:
`accessWellFormed` refuses it first. -/
def regAt (offset : Nat) : Reg :=
  if offset = 0x000 then .cmd
  else if offset = 0x004 then .status
  else if offset = 0x008 then .seed
  else if offset = 0x00C then .width
  else if offset = 0x010 then .tierreq
  else if offset = 0x014 then .buflo
  else if offset = 0x018 then .bufhi
  else if offset = 0x01C then .lenlo
  else if offset = 0x020 then .lenhi
  else if offset = 0x024 then .opa
  else if offset = 0x028 then .opb
  else if offset = 0x02C then .res
  else if offset = 0x030 then .cap
  else if h : 0x080 ≤ offset ∧ offset < 0x100 then .digest ⟨(offset - 0x080) / 4, by omega⟩
  else .reserved

/-- What the decoder reads from an instruction whose bits are `w`, numbered as spec/opcode_table.json numbers
them. A row of format C has 32 bits, the command word. A row of format PHASE has the 4 bits of `STATUS.PHASE`,
one byte when counted in whole bytes: the bits above the code must be 0. -/
def decodeTableWord (nbits w : Nat) : Option Instr :=
  if 2 ^ nbits ≤ w then none
  else if nbits ≤ 8 then
    if w < 16 then (decode (.phase (BitVec.ofNat 4 w))).toOption else none
  else if nbits ≤ 32 then (decode (.command (BitVec.ofNat 32 w))).toOption
  else none

/-! ### The encoder -/

/-- A command word from its opcode (30_encoding.md R90): `OPC` below `RSV` = 0. -/
def commandWord (opc : BitVec 8) : Word := 0#24 ++ opc

/-- The code that selects an instruction, from the tables of 30_encoding.md R92 and R93. -/
def encode : Instr → Code
  | .mix => .command (commandWord 0x01#8)
  | .mixc => .command (commandWord 0x02#8)
  | .hash => .command (commandWord 0x10#8)
  | .seltier => .phase 0b0001#4
  | .seedx => .phase 0b0010#4
  | .consume => .phase 0b0011#4
  | .drain => .phase 0b0100#4
  | .diffuse => .phase 0b0101#4
  | .fold => .phase 0b0110#4
  | .halve => .phase 0b0111#4
  | .emit => .phase 0b1000#4

/-- The offset of a register of the map; `none` for `reserved`, which is no one offset (10_state.md R26). -/
def regOffset : Reg → Option Nat
  | .cmd => some 0x000
  | .status => some 0x004
  | .seed => some 0x008
  | .width => some 0x00C
  | .tierreq => some 0x010
  | .buflo => some 0x014
  | .bufhi => some 0x018
  | .lenlo => some 0x01C
  | .lenhi => some 0x020
  | .opa => some 0x024
  | .opb => some 0x028
  | .res => some 0x02C
  | .cap => some 0x030
  | .digest k => some (0x080 + 4 * k.val)
  | .reserved => none

end Sys2Proof
end

