-- ==== Sys2Proof/Machine/State.lean ====
section
/-!
DEFINITION. The state of the block and of what drives it: the host-visible registers (10_state.md R26 to R46),
the lane file (R21), the sequencer (R25), the hidden registers (R47 to R50), the platform the block stands in
(the buffer memory, device regions, the host's pending actions), and five fields of the model's own. State is
plain data. `CAP` and the other OPEN parameters are no state (R53): they are constants of `Config`.
-/

namespace Sys2Proof.Machine

/-- One lane: storage for the largest N, 64 words (10_state.md R21, R22). -/
abbrev Lane := Vector Word 64

/-- The lane file, `H[1]` to `H[4]`, also named `h1` to `h4` (10_state.md R21). -/
structure Lanes where
  h1 : Lane
  h2 : Lane
  h3 : Lane
  h4 : Lane
deriving DecidableEq, Repr

/-- The buffer memory: the bytes the platform backs, each with its content, by rising address. An address that
is not listed reads as NO VALUE: `Backed` is false for it (20_memory.md R62; notes/assumptions/5.md). -/
abbrev Memory := List Host.Cell

/-- The form every memory has: addresses strictly rising, each inside the 64-bit space (20_memory.md R60).
An unlisted address has no value, so no entry can equal what an unlisted address reads as. -/
abbrev Memory.wf (m : Memory) : Prop :=
  m.Pairwise (fun x y => x.1 < y.1) ∧ ∀ x ∈ m, x.1 < 2 ^ 64

/-- A run of addresses. -/
structure Region where
  base : Nat
  size : Nat
deriving DecidableEq, Repr

/-- One access on the memory port (20_memory.md R69). -/
structure PortRead where
  address : Nat
  size : Nat
deriving DecidableEq, Repr

structure State where
  -- host-visible registers (10_state.md section 4); CMD stores nothing, CAP is a parameter
  /-- SEED, offset 0x008 (R37) -/
  seed : Word
  /-- WIDTH, offset 0x00C (R38) -/
  width : Word
  /-- TIERREQ, offset 0x010: bits 2:0, the only ones stored (R39) -/
  tierreq : BitVec 3
  /-- BUFLO, offset 0x014 (R40) -/
  buflo : Word
  /-- BUFHI, offset 0x018 (R40) -/
  bufhi : Word
  /-- LENLO, offset 0x01C (R41) -/
  lenlo : Word
  /-- LENHI, offset 0x020 (R41) -/
  lenhi : Word
  /-- OPA, offset 0x024 (R42) -/
  opa : Word
  /-- OPB, offset 0x028 (R42) -/
  opb : Word
  /-- RES, offset 0x02C (R43) -/
  res : Word
  /-- DIGEST[0..31], offsets 0x080 + 4k (R45) -/
  digest : Vector Word 32
  -- the fields of STATUS, offset 0x004 (R28); the reserved bits read as 0 and are not stored
  /-- STATUS.BUSY, bit 0 (R29) -/
  busy : Bool
  /-- STATUS.DVALID, bit 1 (R30) -/
  dvalid : Bool
  /-- STATUS.PERR, bit 2, sticky (R31) -/
  perr : Bool
  /-- STATUS.FATAL, bit 3, sticky (R31) -/
  fatal : Bool
  /-- STATUS.RESULT, bits 7:4 (R32) -/
  result : BitVec 4
  /-- STATUS.TIER, bits 9:8 (R33) -/
  tier : BitVec 2
  /-- STATUS.PHASE, bits 15:12; the sequencer's PHASE (R25, R34) -/
  phase : BitVec 4
  -- the rest of the sequencer (R25)
  /-- CURSOR, the number of buffer bytes already consumed -/
  cursor : Addr
  /-- REMAIN, the number of buffer bytes not yet consumed -/
  remain : Addr
  -- the lane file (R21)
  /-- H[1..4][0..63] -/
  h : Lanes
  -- hidden registers (R47 to R50)
  /-- LSEED, the latched SEED -/
  lseed : Word
  /-- LWIDTH, the latched WIDTH -/
  lwidth : Word
  /-- LTIER, the latched TIERREQ[2:0] -/
  ltier : BitVec 3
  /-- LBUF, the latched BUF -/
  lbuf : Addr
  /-- LLEN, the latched LEN -/
  llen : Addr
  /-- SEEDW, the working seed (R48) -/
  seedw : Word
  /-- BLK, the scratch block (R49) -/
  blk : Vector Byte 1024
  /-- P, the provisional output words (R50) -/
  p : Vector Word 32
  /-- COUNT, the number of provisional words still live (R50) -/
  count : Nat
  -- the platform: inputs of the block
  /-- the buffer memory (20_memory.md R60, R62) -/
  mem : Memory
  /-- the regions where the platform maps a device with read side effects (20_memory.md R71) -/
  devices : List Region
  /-- the host's pending actions, the next one first (30_encoding.md R97) -/
  script : List Event
  -- the model's own fields: none is read by a rule of the spec
  /-- the value of the host's last register read, as it left the block -/
  rdata : Option Word
  /-- the digest that the host's last pseudo-instruction `hash` returned, `none` where it returned none
  (30_encoding.md R98) -/
  returned : Option (List Word)
  /-- the values that bytes of the buffer memory held before the host overwrote them while BUSY = 1
  (20_memory.md R75) -/
  raced : List Host.Cell
  /-- how many HASH commands were accepted: it numbers the free values of `Config.raceChoice` -/
  draws : Nat
  /-- the accesses of the last HASH on the memory port, the first one first (20_memory.md R69, R70) -/
  reads : List PortRead
deriving DecidableEq, Repr

/-- No step of this machine stops with a fault: every error of the spec (60_exceptions.md R242) is a next
state in which `STATUS` records it, and the fatal state is a state too (R250). So there is no constructor. -/
inductive Fault where
deriving DecidableEq, Repr

/-- Why the model gives an event no meaning. -/
inductive Refusal where
  /-- raised by an arm of `exec` for an instruction with no meaning yet; no arm does. Safe: the model stops. -/
  | notModelled (mnemonic : String)
  /-- raised by `hostEvent` for a register access that is not an aligned 32-bit one: "has no meaning in this
  spec; a model refuses it" (10_state.md R26, 93_implementation_defined.md V6). Safe: the model stops. -/
  | accessShape
  /-- raised by `execHash` when a device with read side effects lies in `[BUF, BUF+LEN)`: "the behaviour is
  outside this spec and a model refuses the launch" (20_memory.md R71, 93_implementation_defined.md U6).
  Safe: the model stops. -/
  | deviceInBuffer
deriving DecidableEq, Repr

/-- What a step answers. -/
abbrev Result := Host.Outcome State Fault Refusal

/-- A lane of zero words. -/
def zeroLane : Lane := Vector.replicate 64 0

/-- A lane file of zero words. -/
def zeroLanes : Lanes := { h1 := zeroLane, h2 := zeroLane, h3 := zeroLane, h4 := zeroLane }

/-- The machine right after reset (10_state.md R52, 70_reset_and_hazards.md R280): every host-visible register
0, phase IDLE, CURSOR and REMAIN 0. The spec leaves the hidden registers unspecified; their zeros are the
model's (notes/assumptions/3.md). The platform is empty: nothing backed, no device, no host action
(notes/assumptions/5.md, notes/assumptions/7.md). -/
def State.reset : State where
  seed := 0
  width := 0
  tierreq := 0
  buflo := 0
  bufhi := 0
  lenlo := 0
  lenhi := 0
  opa := 0
  opb := 0
  res := 0
  digest := Vector.replicate 32 0
  busy := false
  dvalid := false
  perr := false
  fatal := false
  result := 0
  tier := 0
  phase := 0
  cursor := 0
  remain := 0
  h := zeroLanes
  lseed := 0
  lwidth := 0
  ltier := 0
  lbuf := 0
  llen := 0
  seedw := 0
  blk := Vector.replicate 1024 0
  p := Vector.replicate 32 0
  count := 0
  mem := []
  devices := []
  script := []
  rdata := none
  returned := none
  raced := []
  draws := 0
  reads := []

end Sys2Proof.Machine
end

