-- ==== Sys2Proof/Machine/Bits.lean ====
section
/-!
DEFINITION. The operations of the data path on 32-bit words (00_scope.md R13, 41_wordmix.md R122), the byte
order (20_memory.md R63), and tables of words: reading one entry of a vector by its number, and building a
vector from a function of the number.
-/

namespace Sys2Proof.Machine

/-- `add32(x, y) = (x + y) mod 2^32`; the carry is recorded nowhere (R13, 41_wordmix.md R123). -/
def add32 (x y : Word) : Word := x + y

/-- `rotl(x, r)` for `0 < r < 32` (R13). -/
def rotl (x : Word) (r : Nat) : Word := (x <<< r) ||| (x >>> (32 - r))

/-- `shl(x, r)`: bits shifted past bit 31 are lost, zeros enter at bit 0 (R13). -/
def shl (x : Word) (r : Nat) : Word := x <<< r

/-- `le32(b0, b1, b2, b3)`: the word of four bytes in address order, the byte at the lowest address in bits
7:0 (R13, 20_memory.md R63). -/
def le32 (b0 b1 b2 b3 : Byte) : Word := b3 ++ b2 ++ b1 ++ b0

/-- The words of a run of bytes, four bytes each in address order (20_memory.md R64). Every block has a multiple
of four bytes, so the last equation drops nothing of a block. -/
def wordsOf : List Byte → List Word
  | b0 :: b1 :: b2 :: b3 :: rest => le32 b0 b1 b2 b3 :: wordsOf rest
  | _ => []

/-- Entry `i` of a vector; 0 outside it. -/
def entry {w n : Nat} (v : Vector (BitVec w) n) (i : Nat) : BitVec w := v.toArray.toList.getD i 0

/-- The vector whose entry `i` is `f i`. -/
def tabulate {w : Nat} (n : Nat) (f : Nat → BitVec w) : Vector (BitVec w) n :=
  ⟨⟨(List.range n).map f⟩, by simp⟩

/-- A lane whose words 0 to n-1 are given by `f` and whose other words are those of `x`: "In a command with
`N < 64` the words `H[l][i]` with `i ≥ N` are neither read nor written by any rule" (10_state.md R22). -/
def laneWith (n : Nat) (f : Nat → Word) (x : Lane) : Lane :=
  tabulate 64 fun i => if i < n then f i else entry x i

/-- `H[l]`, `l` in 1..4. -/
def Lanes.lane (h : Lanes) (l : Nat) : Lane :=
  if l = 1 then h.h1 else if l = 2 then h.h2 else if l = 3 then h.h3 else h.h4

/-- `H[l][i]` (00_scope.md R13). -/
def Lanes.word (h : Lanes) (l i : Nat) : Word := entry (h.lane l) i

/-- Words 0 to n-1 of every lane replaced by `f l i`. -/
def lanesWith (n : Nat) (f : Nat → Nat → Word) (h : Lanes) : Lanes where
  h1 := laneWith n (f 1) h.h1
  h2 := laneWith n (f 2) h.h2
  h3 := laneWith n (f 3) h.h3
  h4 := laneWith n (f 4) h.h4

end Sys2Proof.Machine
end

