-- ==== Sys2Proof/Machine/Operands.lean ====
section
/-!
DEFINITION. The operands: `BUF` and `LEN` assembled from their halves (30_encoding.md R94), the values that
acceptance checks (44_block_driver.md R173, R174), and the sizes that the latched width fixes (00_scope.md R8,
R9; 45_finalizer.md R207).
-/

namespace Sys2Proof.Machine

/-- `BUF = BUFHI × 2^32 + BUFLO` (10_state.md R40). -/
def State.buf (s : State) : Addr := s.bufhi ++ s.buflo

/-- `LEN = LENHI × 2^32 + LENLO` (10_state.md R41). -/
def State.len (s : State) : Addr := s.lenhi ++ s.lenlo

/-- The six legal widths (10_state.md R38). -/
def legalWidth (w : Word) : Bool :=
  w == 32 || w == 64 || w == 128 || w == 256 || w == 512 || w == 1024

/-- The legal tier requests: 0 Auto, 1 to 4 a tier; 5, 6, 7 are reserved (10_state.md R39). -/
def legalTierRequest (t : BitVec 3) : Bool := decide (t.toNat ≤ 4)

/-- `N`, the words of a lane, for a width in bits (00_scope.md R8). -/
def laneWords (width : Nat) : Nat := max (2 * width) 512 / 32

/-- `BS = 16N`, the bytes of a block (00_scope.md R8). -/
def blockBytes (width : Nat) : Nat := 16 * laneWords width

/-- The digest words, `width / 32` (00_scope.md R9). -/
def digestWords (width : Nat) : Nat := width / 32

/-- `L = max(width / 32, 4)`, the provisional words of the fold (45_finalizer.md R206). -/
def foldWords (width : Nat) : Nat := max (width / 32) 4

/-- `CS = 4N / L`, the words of a chunk (45_finalizer.md R207). -/
def chunkWords (width : Nat) : Nat := 4 * laneWords width / foldWords width

/-- `N` of the command in progress (10_state.md R47). -/
def State.n (s : State) : Nat := laneWords s.lwidth.toNat

/-- `BS` of the command in progress (10_state.md R47). -/
def State.bs (s : State) : Nat := blockBytes s.lwidth.toNat

/-- Validation of HASH (44_block_driver.md R173, R174): the width, the tier request, and
`BUF + LEN ≤ 2^64` as unbounded integers. -/
def State.hashValid (s : State) : Bool :=
  legalWidth s.width && legalTierRequest s.tierreq && decide (s.buf.toNat + s.len.toNat ≤ 2 ^ 64)

/-- Some byte of the region lies in the run of `len` bytes from `buf`. -/
def Region.meets (r : Region) (buf len : Nat) : Bool :=
  decide (0 < r.size ∧ 0 < len ∧ r.base < buf + len ∧ buf < r.base + r.size)

/-- A device with read side effects lies in `[BUF, BUF+LEN)` (20_memory.md R71). -/
def State.deviceInBuffer (s : State) : Bool :=
  s.devices.any fun r => r.meets s.buf.toNat s.len.toNat

end Sys2Proof.Machine
end

