-- ==== Sys2Proof/Machine/Flags.lean ====
section
/-!
DEFINITION. `STATUS`: its result codes (10_state.md R32), its phase codes (R34), the word that a read returns
(R28), and `CAP` (R44). The block has no arithmetic flags (R36).
-/

namespace Sys2Proof.Machine

/-- RESULT 0, NONE: after reset; while a HASH is in progress (R32). -/
def resNone : BitVec 4 := 0
/-- RESULT 1, OK (R32). -/
def resOk : BitVec 4 := 1
/-- RESULT 2, ERR_CFG (R32). -/
def resErrCfg : BitVec 4 := 2
/-- RESULT 3, ERR_CMD (R32). -/
def resErrCmd : BitVec 4 := 3
/-- RESULT 4, ERR_BUS (R32). -/
def resErrBus : BitVec 4 := 4
/-- RESULT 5, ERR_FATAL (R32). -/
def resErrFatal : BitVec 4 := 5

/-- RESULT codes 6 to 15 are reserved, never produced (R32, R35). -/
def reservedResult (r : BitVec 4) : Bool := decide (6 ≤ r.toNat)

/-- PHASE 0, IDLE (R34). -/
def phIdle : BitVec 4 := 0
/-- PHASE 1, SELTIER (R34). -/
def phSeltier : BitVec 4 := 1
/-- PHASE 2, SEEDX (R34). -/
def phSeedx : BitVec 4 := 2
/-- PHASE 3, CONSUMING (R34). -/
def phConsuming : BitVec 4 := 3
/-- PHASE 4, DRAINING (R34). -/
def phDraining : BitVec 4 := 4
/-- PHASE 5, DIFFUSE (R34). -/
def phDiffuse : BitVec 4 := 5
/-- PHASE 6, FOLD (R34). -/
def phFold : BitVec 4 := 6
/-- PHASE 7, HALVE (R34). -/
def phHalve : BitVec 4 := 7
/-- PHASE 8, EMIT (R34). -/
def phEmit : BitVec 4 := 8
/-- PHASE 15, FATAL (R34). -/
def phFatal : BitVec 4 := 15

/-- `STATUS` as a read returns it (R28): bits 31:16 and 11:10 reserved, read as 0; PHASE 15:12; TIER 9:8;
RESULT 7:4; FATAL 3; PERR 2; DVALID 1; BUSY 0. -/
def State.statusWord (s : State) : Word :=
  0#16 ++ s.phase ++ 0#2 ++ s.tier ++ s.result ++ BitVec.ofBool s.fatal ++ BitVec.ofBool s.perr
    ++ BitVec.ofBool s.dvalid ++ BitVec.ofBool s.busy

/-- `CAP` as a read returns it (R44): bit 0 CAP128, bit 1 CAP256, bit 2 CAP512, bits 31:3 read as 0. -/
def capWord (cap128 cap256 cap512 : Bool) : Word :=
  0#29 ++ BitVec.ofBool cap512 ++ BitVec.ofBool cap256 ++ BitVec.ofBool cap128

end Sys2Proof.Machine
end

