-- ==== Sys2Proof/Machine/Ops.lean ====
section
/-!
DEFINITION. The operations that the meanings share: the buffer memory and the engine's reads of it
(20_memory.md R60 to R75), the outcomes of 60_exceptions.md (an exception "saves nothing and transfers control
nowhere", R252: raising one IS writing the state of R246 to R250, and there is no return, R253), what every
command and every phase step checks first, the sequencer's choice of the next phase, and reset.
-/

namespace Sys2Proof.Machine

/-! ### The buffer memory -/

/-- The byte at an address; `none` where `Backed` is false (20_memory.md R62). -/
def Memory.read : Memory → Nat → Option Byte
  | [], _ => none
  | (k, b) :: m, a => if a = k then some b else Memory.read m a

/-- `Backed(a)` (20_memory.md R62). -/
def Memory.backed (m : Memory) (a : Nat) : Bool := (m.read a).isSome

/-- A byte stored by the host. The platform's memory map does not change: a store to an address that is not
backed changes nothing (notes/assumptions/5.md). -/
def Memory.write : Memory → Nat → Byte → Memory
  | [], _, _ => []
  | (k, b) :: m, a, v => if a = k then (k, v) :: m else (k, b) :: Memory.write m a v

/-- The values that the byte at `a` held before the host overwrote them during this HASH, the latest first. -/
def oldValues (raced : List Host.Cell) (a : Nat) : List Byte :=
  (raced.filter fun c => c.1 == a).map (·.2)

/-- The host stores a byte of its buffer memory. While BUSY = 1 this is the race of 20_memory.md R75: the old
value stays a possible result of the engine's read. -/
def State.storeByte (s : State) (a : Nat) (v : Byte) : State :=
  match s.mem.read a with
  | none => s
  | some old =>
    { s with mem := s.mem.write a v, raced := if s.busy then (a, old) :: s.raced else s.raced }

/-- One of the values a raced byte held: `pick` chooses among the present one and the old ones. -/
def racedValue (now : Byte) (olds : List Byte) (pick : Nat) : Byte :=
  match olds with
  | [] => now
  | o :: os => (now :: o :: os).getD (pick % (os.length + 2)) now

/-- What the engine's one read of address `a` returns: the byte there, or, if the host wrote it while BUSY = 1,
any of the values it held (20_memory.md R75); `none` where the platform does not back it. -/
def State.bufferByte (s : State) (a : Nat) : Option Byte :=
  (s.mem.read a).map fun now => racedValue now (oldValues s.raced a) (Config.raceChoice s.draws a)

/-- What a read of a run of bytes gives: the bytes, or `BusError(a)` for the lowest address `a` that is not
backed, with the bytes before it (20_memory.md R62). -/
inductive BufferRead where
  | data (bytes : List Byte)
  | busError (a : Nat) (before : List Byte)
deriving DecidableEq, Repr

/-- `MemRead(addr, n)`: the bytes at `addr .. addr+n-1`, in address order (20_memory.md R62). -/
def State.readBuffer (s : State) (addr : Nat) : Nat → BufferRead
  | 0 => .data []
  | n + 1 =>
    match s.bufferByte addr with
    | none => .busError addr []
    | some b =>
      match s.readBuffer (addr + 1) n with
      | .data bytes => .data (b :: bytes)
      | .busError a before => .busError a (b :: before)

/-- `G`, the words of a vector of a tier: 1, 4, 8, 16 (10_state.md R24, 43_mixing_round.md R155). -/
def tierWords (t : BitVec 2) : Nat :=
  if t = 0 then 1 else if t = 1 then 4 else if t = 2 then 8 else 16

/-- The accesses that read a run of `n` bytes with accesses of `size` bytes, by rising address
(20_memory.md R69). -/
def portReads (addr size n : Nat) : List PortRead :=
  (List.range (n / size)).map fun q => { address := addr + q * size, size := size }

/-- The accesses that are complete below an address. -/
def completeBelow (a : Nat) (rs : List PortRead) : List PortRead :=
  rs.filter fun r => decide (r.address + r.size ≤ a)

/-! ### Exceptions (60_exceptions.md) -/

/-- `IllegalCommand`: RESULT <- 3, nothing else changes (R246). -/
def State.raiseIllegalCommand (s : State) : State := { s with result := resErrCmd }

/-- `ConfigError`: RESULT <- 2, nothing else changes (R247). -/
def State.raiseConfigError (s : State) : State := { s with result := resErrCfg }

/-- `ProtocolError`: the write is dropped, PERR <- 1 (R248). -/
def State.raiseProtocolError (s : State) : State := { s with perr := true }

/-- `BusError`: RESULT <- 4, BUSY <- 0, phase <- IDLE; the address is not stored (R249, R242). -/
def State.raiseBusError (s : State) : State :=
  { s with result := resErrBus, busy := false, phase := phIdle }

/-- `Fatal`: FATAL <- 1, RESULT <- 5, BUSY <- 0, phase <- FATAL (R250). -/
def State.raiseFatal (s : State) : State :=
  { s with fatal := true, result := resErrFatal, busy := false, phase := phFatal }

/-! ### What every instruction checks first -/

/-- A command: "dropped if issued while BUSY = 1 or FATAL = 1", with PERR in the first case
(60_exceptions.md R245 lines 1 and 2; 41_wordmix.md R125). -/
def commandStep (s : State) (effect : Result) : Result :=
  if s.busy then .next s.raiseProtocolError
  else if s.fatal then .next s
  else effect

/-- What validation should have excluded and a phase step must not find: an illegal `LWIDTH`, `LTIER > 4`
(60_exceptions.md R250). -/
def State.contractHolds (s : State) : Bool := legalWidth s.lwidth && legalTierRequest s.ltier

/-- A phase step: `Fatal` if the contract is broken (60_exceptions.md R250; notes/assumptions/12.md). -/
def phaseStep (s : State) (effect : Result) : Result :=
  if s.contractHolds then effect else .next s.raiseFatal

/-- The phase after SEEDX and after CONSUME: CONSUMING if `REMAIN ≥ BS`, else DRAINING
(44_block_driver.md R171). -/
def nextBlockPhase (remain : Addr) (bs : Nat) : BitVec 4 :=
  if bs ≤ remain.toNat then phConsuming else phDraining

/-! ### Reset -/

/-- `RST`: every piece of the block's state takes its reset value (10_state.md R52). The platform is not the
block's: its memory, its devices and the host's further actions stay. -/
def State.applyReset (s : State) : State :=
  { State.reset with
    mem := s.mem, devices := s.devices, script := s.script
    rdata := s.rdata, returned := s.returned, draws := s.draws }

end Sys2Proof.Machine
end

