-- ==== Sys2Proof/Machine/MixingRound.lean ====
section
/-!
DEFINITION. The Mixing Round (43_mixing_round.md): the scalar definition that all tiers must equal (`scalarRound`),
and the round as a tier executes it, a vector of G words at a time (`tierRound`). CONSUME and DRAIN run
`tierRound` with the selected tier; that the two are equal is a statement for the provers (R156).
-/

namespace Sys2Proof.Machine

/-- `substep(a, b, m)` on one word (R150). -/
def substep (a b m : Word) : Word × Word :=
  let s := a ^^^ b ^^^ m
  (rotl a 11 ^^^ s ^^^ shl s 14, rotl s 19)

/-- Slice `k` of a block of 4N words: words `kN .. kN+N-1`; it feeds sub-step `k + 1` (R152). -/
def blockSlice (n : Nat) (w : List Word) (k i : Nat) : Word := w.getD (k * n + i) 0

/-- One sub-step on a ring pair, all N word indexes (R151). -/
def laneSubstep (n : Nat) (slice : Nat → Word) (a b : Lane) : Lane × Lane :=
  (laneWith n (fun i => (substep (entry a i) (entry b i) (slice i)).1) a,
   laneWith n (fun i => (substep (entry a i) (entry b i) (slice i)).2) b)

/-- A round over the ring (1,2), (2,3), (3,4), (4,1), each sub-step on the lanes as the one before left them
(R151, R153), for a way `sub` of doing one sub-step. -/
def ringOf (sub : (Nat → Word) → Lane → Lane → Lane × Lane) (slice : Nat → Nat → Word) (h : Lanes) : Lanes :=
  let r1 := sub (slice 0) h.h1 h.h2
  let r2 := sub (slice 1) r1.2 h.h3
  let r3 := sub (slice 2) r2.2 h.h4
  let r4 := sub (slice 3) r3.2 r1.1
  { h1 := r4.2, h2 := r2.1, h3 := r3.1, h4 := r4.1 }

/-- ROUND, the scalar definition (R151). -/
def scalarRound (n : Nat) (w : List Word) (h : Lanes) : Lanes :=
  ringOf (laneSubstep n) (blockSlice n w) h

/-- One vector operation of a sub-step: words `base .. base+g-1` of both lanes (R155). -/
def vectorSubstep (g base : Nat) (slice : Nat → Word) (ab : Lane × Lane) : Lane × Lane :=
  (tabulate 64 fun i =>
      if base ≤ i ∧ i < base + g then (substep (entry ab.1 i) (entry ab.2 i) (slice i)).1 else entry ab.1 i,
   tabulate 64 fun i =>
      if base ≤ i ∧ i < base + g then (substep (entry ab.1 i) (entry ab.2 i) (slice i)).2 else entry ab.2 i)

/-- One sub-step in a tier of `g` words a vector: the N/g groups one after the other (R155). -/
def tierSubstep (g n : Nat) (slice : Nat → Word) (a b : Lane) : Lane × Lane :=
  (List.range (n / g)).foldl (fun ab q => vectorSubstep g (q * g) slice ab) (a, b)

/-- ROUND as a tier of `g` words a vector executes it (R155). -/
def tierRound (g n : Nat) (w : List Word) (h : Lanes) : Lanes :=
  ringOf (tierSubstep g n) (blockSlice n w) h

end Sys2Proof.Machine
end

