-- ==== Sys2Proof/Machine/BlockDriver.lean ====
section
/-!
DEFINITION. The Block/Padding Driver (44_block_driver.md): the command HASH (validation and acceptance; the
phase steps that follow are the other instructions), and the phase steps CONSUME and DRAIN.
-/

namespace Sys2Proof.Machine

/-- Acceptance of HASH, one transition (R175, 10_state.md R47). The race record and the log of port reads start
afresh: they are about one HASH. -/
def State.accept (s : State) : State :=
  { s with
    lseed := s.seed, lwidth := s.width, ltier := s.tierreq, lbuf := s.buf, llen := s.len
    cursor := 0, remain := s.len
    busy := true, dvalid := false, result := resNone
    digest := Vector.replicate 32 0
    phase := phSeltier
    raced := [], draws := s.draws + 1, reads := [] }

/-- HASH (R170, 60_exceptions.md R245 line 6): validation; ERR_CFG, or acceptance. A launch on a buffer that
holds a device with read side effects is refused (20_memory.md R71). -/
def execHash (s : State) : Result :=
  commandStep s
    (if s.hashValid then
      (if s.deviceInBuffer then .refused .deviceInBuffer else .next s.accept)
     else .next s.raiseConfigError)

/-- The address of the next byte to consume, `LBUF + CURSOR`, with no wrap (R177, 20_memory.md R72). -/
def State.readAddress (s : State) : Nat := s.lbuf.toNat + s.cursor.toNat

/-- CONSUME after its read: the round, CURSOR and REMAIN, the next phase (R177). -/
def State.consumeBlock (s : State) (bytes : List Byte) : State :=
  { s with
    h := tierRound (tierWords s.tier) s.n (wordsOf bytes) s.h
    cursor := s.cursor + BitVec.ofNat 64 s.bs
    remain := s.remain - BitVec.ofNat 64 s.bs
    phase := nextBlockPhase (s.remain - BitVec.ofNat 64 s.bs) s.bs
    reads := s.reads ++ portReads s.readAddress (4 * tierWords s.tier) s.bs }

/-- CONSUME (R177): one full block is read and mixed. On `BusError` the round is not executed (60_exceptions.md
R249). -/
def execConsume (s : State) : Result :=
  phaseStep s
    (match s.readBuffer s.readAddress s.bs with
     | .data bytes => .next (s.consumeBlock bytes)
     | .busError a _ => .next (State.raiseBusError { s with
         reads := s.reads ++ completeBelow a (portReads s.readAddress (4 * tierWords s.tier) s.bs) }))

/-- The pad byte at block position `j ≥ r`: `(j - r + 1) mod 256` (R179). -/
def padByte (r j : Nat) : Byte := BitVec.ofNat 8 (j - r + 1)

/-- The padded block: the tail, then pad bytes up to `bs` bytes (R178, R179). -/
def padBlock (bs : Nat) (tail : List Byte) : List Byte :=
  (List.range bs).map fun j => if j < tail.length then tail.getD j 0 else padByte tail.length j

/-- BLK with bytes 0 to n-1 of a block written into it. -/
def scratchWith (n : Nat) (bytes : List Byte) (blk : Vector Byte 1024) : Vector Byte 1024 :=
  tabulate 1024 fun j => if j < n then bytes.getD j 0 else entry blk j

/-- DRAIN after its reads: BLK, the round, CURSOR and REMAIN, then DIFFUSE (R178). -/
def State.drainBlock (s : State) (tail : List Byte) : State :=
  { s with
    blk := scratchWith s.bs (padBlock s.bs tail) s.blk
    h := tierRound (tierWords s.tier) s.n (wordsOf (padBlock s.bs tail)) s.h
    cursor := s.cursor + s.remain
    remain := 0
    phase := phDiffuse
    reads := s.reads ++ portReads s.readAddress 1 s.remain.toNat }

/-- DRAIN (R178): the tail is read a byte at a time, padded and mixed, always once (R182). On `BusError` the
bytes before the failing one are in BLK and the round is not executed (60_exceptions.md R249, R252). -/
def execDrain (s : State) : Result :=
  phaseStep s
    (match s.readBuffer s.readAddress s.remain.toNat with
     | .data tail => .next (s.drainBlock tail)
     | .busError _ before => .next (State.raiseBusError { s with
         blk := scratchWith before.length before s.blk
         reads := s.reads ++ portReads s.readAddress 1 before.length }))

end Sys2Proof.Machine
end

