-- ==== Sys2Proof/Machine/WordMix.lean ====
section
/-!
DEFINITION. The Word-Mix Primitive and the commands MIX and MIXC (41_wordmix.md).
-/

namespace Sys2Proof.Machine

/-- `mix(a, b)` (R120). -/
def mix (a b : Word) : Word :=
  let b1 := b ^^^ a
  let a2 := rotl a 11 ^^^ b1 ^^^ rotl b1 13
  let b2 := rotl b1 19
  add32 a2 b2

/-- `mix1(a) = mix(a, MIX_CONST)` (R121), for a value `c` of the constant. -/
def mix1 (c a : Word) : Word := mix a c

/-- MIX (R125): RES <- mix(OPA, OPB), RESULT <- OK. -/
def execMix (s : State) : Result :=
  commandStep s (.next { s with res := mix s.opa s.opb, result := resOk })

/-- MIXC (R126): RES <- mix1(OPA), RESULT <- OK; OPB is ignored. -/
def execMixc (s : State) : Result :=
  commandStep s (.next { s with res := mix1 Config.mixConst s.opa, result := resOk })

end Sys2Proof.Machine
end

