-- ==== Sys2Proof/Machine/Finalizer.lean ====
section
/-!
DEFINITION. The Finalizer and Width-Folder (45_finalizer.md): the phase steps DIFFUSE (the length mix and the
diffusion passes), FOLD, HALVE and EMIT, and the reference instantiation of the diffusion passes (R205).
-/

namespace Sys2Proof.Machine

/-! ### The length mix -/

/-- `lw`: bits 30:0 of the length, zero-extended (R201). -/
def lengthWord (llen : Addr) : Word := llen.setWidth 32 &&& 0x7fffffff

/-- LENMIX (R201): `mix1(lw)` is XORed into every word of every lane. -/
def lenMix (c : Word) (n : Nat) (llen : Addr) (h : Lanes) : Lanes :=
  lanesWith n (fun l i => h.word l i ^^^ mix1 c (lengthWord llen)) h

/-! ### The diffusion passes -/

/-- What a diffusion pass works on: the lanes, the temporaries written so far (the latest first), and the
words this pass has mixed. -/
structure DiffuseRun where
  lanes : Lanes
  temps : List (Nat × Word)
  mixed : List (Fin 4 × Fin 64)
deriving DecidableEq, Repr

/-- The value of a temporary: the one written last, 0 before the first. -/
def tempValue : List (Nat × Word) → Nat → Word
  | [], _ => 0
  | (j, v) :: ts, k => if k = j then v else tempValue ts k

/-- One word of the lanes replaced. -/
def Lanes.setWord (h : Lanes) (l i : Nat) (v : Word) : Lanes :=
  lanesWith 64 (fun l' i' => if l' = l ∧ i' = i then v else h.word l' i') h

/-- Reading a slot. A word with `i ≥ N` is no word of this hash state: it reads as 0. -/
def DiffuseRun.get (n : Nat) (r : DiffuseRun) : Slot → Word
  | .word l i => if i.val < n then r.lanes.word (l.val + 1) i.val else 0
  | .temp k => tempValue r.temps k

/-- Writing a slot. A write to a word with `i ≥ N` is dropped. -/
def DiffuseRun.set (n : Nat) (r : DiffuseRun) (slot : Slot) (v : Word) : DiffuseRun :=
  match slot with
  | .word l i => if i.val < n then { r with lanes := r.lanes.setWord (l.val + 1) i.val v } else r
  | .temp k => { r with temps := (k, v) :: r.temps }

/-- One operation of a pass (R203 (b)). A second `mixWord` of a word in one pass does nothing (R203 (c)). -/
def DiffuseRun.op (c : Word) (n : Nat) (r : DiffuseRun) : DiffuseOp → DiffuseRun
  | .accumulate dst src => r.set n dst (add32 (r.get n dst) (r.get n src))
  | .copy dst src => r.set n dst (r.get n src)
  | .mixWord l i =>
    if (l, i) ∈ r.mixed then r
    else { r.set n (.word l i) (mix1 c (r.get n (.word l i))) with mixed := (l, i) :: r.mixed }

/-- Word `i` of lane `l` (1..4) is among the words a pass has mixed. -/
def wasMixed (mixed : List (Fin 4 × Fin 64)) (l i : Nat) : Bool :=
  mixed.any fun p => p.1.val + 1 == l && p.2.val == i

/-- A pass: its operations in order, then `mix1` of every word it has not mixed, so that `mix1` is applied once
to each of the 4N words (R203 (c)). -/
def runPass (c : Word) (n : Nat) (ops : List DiffuseOp) (r : DiffuseRun) : DiffuseRun :=
  let r' := ops.foldl (fun r o => r.op c n o) { r with mixed := [] }
  { r' with lanes := lanesWith n (fun l i =>
      if wasMixed r'.mixed l i then r'.lanes.word l i else mix1 c (r'.lanes.word l i)) r'.lanes }

/-- `DIFFUSE_PASSES(N, H)` of a program: two passes (R203 (c)). -/
def runProgram (c : Word) (prog : DiffuseProgram) (n : Nat) (h : Lanes) : Lanes :=
  (runPass c n prog.pass2 (runPass c n prog.pass1 { lanes := h, temps := [], mixed := [] })).lanes

/-- `DIFFUSE_PASSES(N, H)` of this instance of the block: OPEN (R203, 92_eei_decisions.md D5). -/
def diffusePasses (n : Nat) (h : Lanes) : Lanes :=
  runProgram Config.mixConst (Config.diffuseProgram n) n h

/-- One pass of the reference instantiation, written as R205 writes it. -/
def referencePass (c : Word) (n : Nat) (h : Lanes) : Lanes :=
  let a := fun i => add32 (add32 (add32 (h.word 1 i) (h.word 2 i)) (h.word 3 i)) (h.word 4 i)
  lanesWith n (fun l i => mix1 c (if l = 1 then a i else add32 (h.word l i) (a i))) h

/-- `DIFFUSE_PASSES_ref(N, H)` (R205). -/
def diffuseReference (c : Word) (n : Nat) (h : Lanes) : Lanes :=
  referencePass c n (referencePass c n h)

/-- The accumulations of R205 at one word index. -/
def referenceOpsAt (i : Fin 64) : List DiffuseOp :=
  [.accumulate (.word 0 i) (.word 1 i), .accumulate (.word 0 i) (.word 2 i),
   .accumulate (.word 0 i) (.word 3 i), .accumulate (.word 1 i) (.word 0 i),
   .accumulate (.word 2 i) (.word 0 i), .accumulate (.word 3 i) (.word 0 i)]

/-- The reference instantiation as a program: the value of the parameter that gives R205. -/
def referenceProgram : DiffuseProgram where
  pass1 := (List.finRange 64).flatMap referenceOpsAt
  pass2 := (List.finRange 64).flatMap referenceOpsAt

/-- DIFFUSE (R200): LENMIX, then the diffusion passes, as one step; then FOLD. -/
def execDiffuse (s : State) : Result :=
  phaseStep s (.next { s with
    h := diffusePasses s.n (lenMix Config.mixConst s.n s.llen s.h)
    phase := phFold })

/-! ### The width fold -/

/-- `chunk[c][j]`, for the chunk list of a width (R207). -/
def chunkWord (width : Nat) (h : Lanes) (c j : Nat) : Word :=
  h.word (c / (foldWords width / 4) + 1) (c % (foldWords width / 4) * chunkWords width + j)

/-- Term `j` of provisional word `i` (R208). -/
def foldTerm (width : Nat) (h : Lanes) (i j : Nat) : Word :=
  mix (chunkWord width h ((i + j) % foldWords width) j)
    (chunkWord width h ((i + j + foldWords width / 2) % foldWords width) (chunkWords width - 1 - j))

/-- Provisional word `i`: the XOR of its terms, j = 0 .. CS-1 (R208). -/
def foldWord (width : Nat) (h : Lanes) (i : Nat) : Word :=
  (List.range (chunkWords width)).foldl (fun acc j => acc ^^^ foldTerm width h i j) 0

/-- P with words 0 to L-1 written by the fold (R208). -/
def foldInto (width : Nat) (h : Lanes) (p : Vector Word 32) : Vector Word 32 :=
  tabulate 32 fun i => if i < foldWords width then foldWord width h i else entry p i

/-- FOLD (R208): P and COUNT; then HALVE. It writes nothing into H (R206). -/
def execFold (s : State) : Result :=
  phaseStep s (.next { s with
    p := foldInto s.lwidth.toNat s.h s.p
    count := foldWords s.lwidth.toNat
    phase := phHalve })

/-- One halving: `P[i] <- mix(P[i], P[COUNT-1-i])` for i in 0 .. COUNT/2 - 1 (R212). -/
def halveOnce (count : Nat) (p : Vector Word 32) : Vector Word 32 :=
  tabulate 32 fun i => if i < count / 2 then mix (entry p i) (entry p (count - 1 - i)) else entry p i

/-- The loop of HALVE: while COUNT > target (R212). Each turn halves COUNT, so `fuel = COUNT` turns always
suffice. -/
def halveLoop (target : Nat) : Nat → Nat → Vector Word 32 → Nat × Vector Word 32
  | 0, count, p => (count, p)
  | fuel + 1, count, p =>
    if target < count then halveLoop target fuel (count / 2) (halveOnce count p) else (count, p)

/-- HALVE (R212): all halvings; then EMIT. -/
def execHalve (s : State) : Result :=
  phaseStep s (.next { s with
    count := (halveLoop (digestWords s.lwidth.toNat) s.count s.count s.p).1
    p := (halveLoop (digestWords s.lwidth.toNat) s.count s.count s.p).2
    phase := phEmit })

/-! ### Emit -/

/-- The digest registers: P[k] for k < COUNT, 0 in the others (R216). -/
def digestOf (count : Nat) (p : Vector Word 32) : Vector Word 32 :=
  tabulate 32 fun k => if k < count then entry p k else 0

/-- EMIT (R216): the digest, DVALID <- 1, RESULT <- OK, BUSY <- 0, phase <- IDLE, in one transition; `Fatal` if
`COUNT ≠ LWIDTH/32`. -/
def execEmit (s : State) : Result :=
  phaseStep s
    (if s.count = digestWords s.lwidth.toNat then
      .next { s with
        digest := digestOf s.count s.p
        dvalid := true, result := resOk, busy := false, phase := phIdle }
     else .next s.raiseFatal)

end Sys2Proof.Machine
end

