-- ==== Sys2Proof/Machine/SeedExpansion.lean ====
section
/-!
DEFINITION. Seed Expansion and the phase step SEEDX (42_seed_expansion.md).
-/

namespace Sys2Proof.Machine

/-- The working seed after `k` advances from `seed` (R140, R141): `s1` for 0, `s2` for 1, and so on. -/
def seedAfter (c seed : Word) : Nat → Word
  | 0 => seed
  | k + 1 => mix1 c (seedAfter c seed k)

/-- The lanes after Seed Expansion: all N words of lane `l` equal `s_l` (R140, R141). -/
def seedLanes (c seed : Word) (n : Nat) (h : Lanes) : Lanes :=
  lanesWith n (fun l _ => seedAfter c seed (l - 1)) h

/-- SEEDX (R140): the four lanes, the working seed advanced four times, then CONSUMING or DRAINING. -/
def execSeedx (s : State) : Result :=
  phaseStep s (.next { s with
    h := seedLanes Config.mixConst s.lseed s.n s.h
    seedw := seedAfter Config.mixConst s.lseed 4
    phase := nextBlockPhase s.remain s.bs })

end Sys2Proof.Machine
end

