-- ==== Sys2Proof/Machine/TierSelector.lean ====
section
/-!
DEFINITION. The Tier Selector and the phase step SELTIER (46_tier_selector.md).
-/

namespace Sys2Proof.Machine

/-- The three answers of the capability probe (R231). -/
structure Capabilities where
  cap128 : Bool
  cap256 : Bool
  cap512 : Bool
deriving DecidableEq, Repr

/-- The capabilities of this instance of the block: OPEN (R231). -/
def capabilities : Capabilities :=
  { cap128 := Config.cap128, cap256 := Config.cap256, cap512 := Config.cap512 }

/-- `capable(t)` (R232). Scalar is always capable. -/
def Capabilities.capable (c : Capabilities) (t : Nat) : Bool :=
  t == 0 || (t == 1 && c.cap128) || (t == 2 && c.cap256) || (t == 3 && c.cap512)

/-- `aligned(t, addr)`: the masks 15, 31, 63 for tiers 1, 2, 3 (R232, 20_memory.md R66). -/
def tierAligned (t : Nat) (addr : Addr) : Bool :=
  t == 0 || addr &&& BitVec.ofNat 64 (8 * 2 ^ t - 1) == 0

/-- The largest `t` in 0..upper with `ok t`, where `ok 0` holds. -/
def largestTier (ok : Nat → Bool) : Nat → Nat
  | 0 => 0
  | t + 1 => if ok (t + 1) then t + 1 else largestTier ok t

/-- The upper bound: the widest capable tier for Auto, the pinned tier otherwise (R232). -/
def tierUpperBound (c : Capabilities) (req : Nat) : Nat :=
  if req = 0 then largestTier c.capable 3 else req - 1

/-- `selectTier(req, addr)`, `req` in 0..4 (R232; 90_conflicts.md C3). -/
def selectTier (c : Capabilities) (req : Nat) (addr : Addr) : Nat :=
  largestTier (fun t => c.capable t && tierAligned t addr) (tierUpperBound c req)

/-- SELTIER (R233): STATUS.TIER <- selectTier(LTIER, LBUF), then SEEDX. -/
def execSeltier (s : State) : Result :=
  phaseStep s (.next { s with
    tier := BitVec.ofNat 2 (selectTier capabilities s.ltier.toNat s.lbuf)
    phase := phSeedx })

end Sys2Proof.Machine
end

