-- ==== Sys2Proof/Machine/Dispatch.lean ====
section
/-! DEFINITION. The meaning of each instruction, one arm per constructor. -/

namespace Sys2Proof.Machine

def exec (i : Instr) (s : State) : Host.Outcome State Fault Refusal :=
  match i with
  | .mix => Sys2Proof.Machine.execMix s
  | .mixc => Sys2Proof.Machine.execMixc s
  | .hash => Sys2Proof.Machine.execHash s
  | .seltier => Sys2Proof.Machine.execSeltier s
  | .seedx => Sys2Proof.Machine.execSeedx s
  | .consume => Sys2Proof.Machine.execConsume s
  | .drain => Sys2Proof.Machine.execDrain s
  | .diffuse => Sys2Proof.Machine.execDiffuse s
  | .fold => Sys2Proof.Machine.execFold s
  | .halve => Sys2Proof.Machine.execHalve s
  | .emit => Sys2Proof.Machine.execEmit s

end Sys2Proof.Machine
end

