-- ==== Sys2Proof/Machine/Engine.lean ====
section
/-!
DEFINITION. The two agents of 10_state.md R20: the engine's turn (fetching the phase step that `STATUS.PHASE`
names) and the host's register accesses (10_state.md R26 to R46, 60_exceptions.md R245, R248).
-/

namespace Sys2Proof.Machine

/-- The engine's turn: the phase step that PHASE names. In IDLE and in FATAL the engine takes no step
(10_state.md R34). A reserved PHASE or RESULT code is the fatal state (10_state.md R35, 60_exceptions.md R250). -/
def engineTurn (s : State) : Result :=
  if reservedResult s.result then .next s.raiseFatal
  else
    match decode (.phase s.phase) with
    | .ok i => exec i s
    | .error .reservedPhase => .next s.raiseFatal
    | .error _ => .next s

/-- `on write(CMD, c)`, the ordered list of 60_exceptions.md R245. -/
def writeCmd (s : State) (c : Word) : Result :=
  if s.busy then .next s.raiseProtocolError
  else if s.fatal then .next s
  else
    match decode (.command c) with
    | .ok i => exec i s
    | .error _ => .next s.raiseIllegalCommand

/-- A 32-bit write of a register. While BUSY = 1 it is dropped and PERR is set, whatever its target
(60_exceptions.md R248); otherwise a read-only register and a reserved offset ignore it (10_state.md R46). -/
def writeReg (s : State) (r : Reg) (v : Word) : Result :=
  if s.busy then .next s.raiseProtocolError
  else
    match r with
    | .cmd => writeCmd s v
    | .seed => .next { s with seed := v }
    | .width => .next { s with width := v }
    | .tierreq => .next { s with tierreq := v.extractLsb' 0 3 }
    | .buflo => .next { s with buflo := v }
    | .bufhi => .next { s with bufhi := v }
    | .lenlo => .next { s with lenlo := v }
    | .lenhi => .next { s with lenhi := v }
    | .opa => .next { s with opa := v }
    | .opb => .next { s with opb := v }
    | .status => .next s
    | .res => .next s
    | .cap => .next s
    | .digest _ => .next s
    | .reserved => .next s

/-- The value a 32-bit read of a register returns; it changes nothing (10_state.md R26 to R46). -/
def readReg (s : State) : Reg → Word
  | .cmd => 0
  | .status => s.statusWord
  | .seed => s.seed
  | .width => s.width
  | .tierreq => s.tierreq.setWidth 32
  | .buflo => s.buflo
  | .bufhi => s.bufhi
  | .lenlo => s.lenlo
  | .lenhi => s.lenhi
  | .opa => s.opa
  | .opb => s.opb
  | .res => s.res
  | .cap => capWord Config.cap128 Config.cap256 Config.cap512
  | .digest k => if s.dvalid then entry s.digest k.val else 0
  | .reserved => 0

/-- `wait` (30_encoding.md R98): one read of STATUS. While BUSY = 1 the read is repeated, after a turn of the
engine (notes/assumptions/9.md). -/
def waitRead (s : State) : State :=
  let status := readReg s .status
  { s with
    rdata := some status
    script := if status.getLsbD 0 then .engine :: .wait :: s.script else s.script }

/-- The end of `hash` (30_encoding.md R98): if the STATUS last read has RESULT = 1, the words `DIGEST[k]` for
`k = 0 .. width/32 - 1`, each by a read of its register; otherwise no digest. -/
def collectDigest (s : State) (width : Word) : Option (List Word) :=
  match s.rdata with
  | some status =>
    if status.extractLsb' 4 4 = resOk then
      some ((List.range (digestWords width.toNat)).map fun k => readReg s (regAt (0x080 + 4 * k)))
    else none
  | none => none

/-- One action at the block's boundary. An access that is not an aligned 32-bit one is refused (10_state.md
R26); a read leaves its value in `rdata`, the model's own field, and changes nothing else. -/
def performEvent (s : State) : Event → Result
  | .engine => engineTurn s
  | .write offset size value =>
    if accessWellFormed offset size then writeReg s (regAt offset) value else .refused .accessShape
  | .read offset size =>
    if accessWellFormed offset size then .next { s with rdata := some (readReg s (regAt offset)) }
    else .refused .accessShape
  | .wait => .next (waitRead s)
  | .collect width => .next { s with returned := collectDigest s width }
  | .store address value => .next (s.storeByte address value)
  | .rst => .next s.applyReset

/-- One step: the next action of the host's script, or, where the host does nothing, the engine's turn
(70_reset_and_hazards.md R288: an engine with BUSY = 1 eventually takes its next phase step). -/
def machineStep (s : State) : Result :=
  match s.script with
  | [] => engineTurn s
  | e :: rest => performEvent { s with script := rest } e

/-- The state in which the engine's next turn is the phase step of code `p`, as it can stand only inside a HASH:
BUSY = 1, a legal latched width (32 where the state holds none), and for EMIT the COUNT that HALVE leaves; and
the engine's turn is the next thing that happens. -/
def State.atPhase (s : State) (p : BitVec 4) : State :=
  let w : Word := if legalWidth s.lwidth then s.lwidth else 32
  { s with
    phase := p, busy := true, lwidth := w
    count := if p = phEmit then digestWords w.toNat else s.count
    script := .engine :: s.script }

/-- `s` with an instruction stored where the machine takes its next instruction from: a command word in a host
write to CMD that is the next thing that happens, a phase code in the sequencer. -/
def State.placeInstruction (s : State) (nbits w : Nat) : State :=
  if nbits ≤ 8 then s.atPhase (BitVec.ofNat 4 w)
  else { s with script := .write 0x000 4 (BitVec.ofNat 32 w) :: s.script }

end Sys2Proof.Machine
end

