-- ==== Sys2Proof/Machine/HexDigest.lean ====
section
/-!
DEFINITION. The hex string of a digest, "done by the host" (45_finalizer.md R218), and parsing it back (R219).
A string is a list of characters.
-/

namespace Sys2Proof.Machine

/-- The digit of a value below 16, from the alphabet of R218. -/
def hexDigit (v : Nat) : Char := "0123456789abcdef".toList.getD v '0'

/-- `hex8(w)`: the characters for `w[31:28], w[27:24], ..., w[3:0]` in that order (R218). -/
def hex8 (w : Word) : List Char :=
  (List.range 8).map fun k => hexDigit (w.extractLsb' (28 - 4 * k) 4).toNat

/-- `hex(D)`: the words in output order, no separators (R218). -/
def hexDigest (d : List Word) : List Char := d.flatMap hex8

/-- The value of a digit of the alphabet of R218. -/
def hexValue (ch : Char) : Option Nat :=
  "0123456789abcdef".toList.findIdx? (· == ch)

/-- A word from eight digits, the most significant first (R219). -/
def parseDigits : List Char → Word → Option Word
  | [], acc => some acc
  | ch :: rest, acc =>
    match hexValue ch with
    | some v => parseDigits rest (acc <<< 4 ||| BitVec.ofNat 32 v)
    | none => none

/-- The words of a string, eight characters at a time; `none` if a character is no digit or some are left over
(R219). -/
def parseHex : List Char → Option (List Word)
  | [] => some []
  | c0 :: c1 :: c2 :: c3 :: c4 :: c5 :: c6 :: c7 :: rest =>
    match parseDigits [c0, c1, c2, c3, c4, c5, c6, c7] 0, parseHex rest with
    | some w, some ws => some (w :: ws)
    | _, _ => none
  | _ => none

end Sys2Proof.Machine
end

