-- ==== Sys2Proof/Machine/Scripts.lean ====
section
/-!
DEFINITION. The pseudo-instructions of 30_encoding.md R98 as scripts of host actions. What branches on a value
read, `wait` and the end of `hash`, is an action of its own (`waitRead`, `collectDigest` in Machine/Engine.lean);
`hex` is `hexDigest`.
-/

namespace Sys2Proof.Machine

/-- `wr NAME, value` for a register of the map (R97). -/
def wr (r : Reg) (v : Word) : List Event :=
  match regOffset r with
  | some off => [.write off 4 v]
  | none => []

/-- `rd NAME` for a register of the map (R97). -/
def rd (r : Reg) : List Event :=
  match regOffset r with
  | some off => [.read off 4]
  | none => []

/-- `mix a, b -> r` (R98). -/
def mixScript (a b : Word) : List Event := wr .opa a ++ wr .opb b ++ wr .cmd 0x01 ++ rd .res

/-- `mix a -> r`, also `mixc a -> r` (R98). -/
def mixcScript (a : Word) : List Event := wr .opa a ++ wr .cmd 0x02 ++ rd .res

/-- `wait` (R98). -/
def waitScript : List Event := [.wait]

/-- `hash buf, len, seed, width, tier -> d` (R98); `d` is what it leaves in the field `returned`. -/
def hashScript (buf len : Addr) (seed width tier : Word) : List Event :=
  wr .seed seed ++ wr .width width ++ wr .tierreq tier
    ++ wr .buflo (buf.extractLsb' 0 32) ++ wr .bufhi (buf.extractLsb' 32 32)
    ++ wr .lenlo (len.extractLsb' 0 32) ++ wr .lenhi (len.extractLsb' 32 32)
    ++ wr .cmd 0x10 ++ waitScript ++ [.collect width]

/-- The seven configuration writes of `hash`, done (R98): the configuration that its `CMD` write finds. -/
def State.configured (s : State) (buf len : Addr) (seed width tier : Word) : State :=
  { s with
    seed := seed, width := width, tierreq := tier.extractLsb' 0 3
    buflo := buf.extractLsb' 0 32, bufhi := buf.extractLsb' 32 32
    lenlo := len.extractLsb' 0 32, lenhi := len.extractLsb' 32 32 }

end Sys2Proof.Machine
end

