-- ==== Sys2Proof/Machine/HashFunction.lean ====
section
/-!
DEFINITION. HASH "as one function of its inputs" (44_block_driver.md R170, R172): the digest of a list of bytes,
a seed and a width, for a value of `MIX_CONST` and of the diffusion passes. It has no registers, no phases, no
tier, no addresses: that the phase steps of the engine end with this digest is a statement for the provers.
`digestAt` is the digest of this instance of the block.
-/

namespace Sys2Proof.Machine

/-- The lanes after `k` full blocks and the padded block of the bytes left (R176, R182). -/
def absorb (n bs : Nat) : Nat → List Byte → Lanes → Lanes
  | 0, bytes, h => scalarRound n (wordsOf (padBlock bs bytes)) h
  | k + 1, bytes, h => absorb n bs k (bytes.drop bs) (scalarRound n (wordsOf (bytes.take bs)) h)

/-- The lanes before the fold (R170): seed expansion, the blocks, the length mix, the diffusion passes. -/
def hashLanes (c : Word) (diffuse : Nat → Lanes → Lanes) (bytes : List Byte) (seed : Word) (width : Nat) : Lanes :=
  let n := laneWords width
  let bs := blockBytes width
  let absorbed := absorb n bs (bytes.length / bs) bytes (seedLanes c seed n zeroLanes)
  diffuse n (lenMix c n (BitVec.ofNat 64 bytes.length) absorbed)

/-- The provisional words, and how many are live, after FOLD and HALVE (R170). -/
def hashWords (c : Word) (diffuse : Nat → Lanes → Lanes) (bytes : List Byte) (seed : Word) (width : Nat) :
    Nat × Vector Word 32 :=
  halveLoop (digestWords width) (foldWords width) (foldWords width)
    (foldInto width (hashLanes c diffuse bytes seed width) (Vector.replicate 32 0))

/-- The digest registers that HASH leaves (R170, R216). -/
def hashDigest (c : Word) (diffuse : Nat → Lanes → Lanes) (bytes : List Byte) (seed : Word) (width : Nat) :
    Vector Word 32 :=
  digestOf (hashWords c diffuse bytes seed width).1 (hashWords c diffuse bytes seed width).2

/-- The digest of this instance of the block (R172). -/
def digestAt (bytes : List Byte) (seed : Word) (width : Nat) : Vector Word 32 :=
  hashDigest Config.mixConst diffusePasses bytes seed width

end Sys2Proof.Machine
end

