-- ==== Sys2Proof/Safety.lean ====
section
/-!
DEFINITION. What counts as a sound state of the block, and the words that statements use about the buffer.
-/

namespace Sys2Proof.Machine

/-- What every state of a correct block holds, from reset on. The fatal state is not among them:
"With correct hardware it is unreachable" (60_exceptions.md R250). -/
structure Consistent (s : State) : Prop where
  /-- the memory has its canonical form (20_memory.md R60) -/
  memory : s.mem.wf
  /-- no code of RESULT is ERR_FATAL or reserved (10_state.md R32) -/
  result : s.result.toNat ≤ 4
  /-- no code of PHASE is FATAL or reserved (10_state.md R34) -/
  phase : s.phase.toNat ≤ 8
  /-- the fatal state is not entered (60_exceptions.md R250) -/
  notFatal : s.fatal = false
  /-- BUSY = 1 exactly while the sequencer is inside a HASH (10_state.md R28, R34) -/
  busy : s.busy = true ↔ s.phase ≠ phIdle
  /-- RESULT is NONE and DVALID is 0 from the acceptance of HASH until it ends (10_state.md R30, R32) -/
  inProgress : s.busy = true → s.result = resNone ∧ s.dvalid = false
  /-- no digest, no digest words (10_state.md R45) -/
  noDigest : s.dvalid = false → s.digest = Vector.replicate 32 0
  /-- the latched configuration is one that validation passes (44_block_driver.md R173, R174) -/
  latched : s.busy = true →
    s.contractHolds = true ∧ s.lbuf.toNat + s.llen.toNat ≤ 2 ^ 64
  /-- after SELTIER the buffer address has the alignment of the selected tier (46_tier_selector.md R232, R233) -/
  aligned : s.busy = true → s.phase ≠ phSeltier → tierAligned s.tier.toNat s.lbuf = true
  /-- "`CURSOR + REMAIN` equals the latched length at every step" (10_state.md R25) -/
  progress : s.busy = true → s.cursor.toNat + s.remain.toNat = s.llen.toNat
  /-- nothing is consumed before the first block -/
  start : s.phase = phSeltier ∨ s.phase = phSeedx → s.cursor = 0
  /-- whole blocks are consumed before the tail, and CONSUMING has a full block left (44_block_driver.md R177) -/
  consuming : s.phase = phConsuming → s.cursor.toNat % s.bs = 0 ∧ s.bs ≤ s.remain.toNat
  /-- DRAINING has less than a block left (44_block_driver.md R178) -/
  draining : s.phase = phDraining → s.cursor.toNat % s.bs = 0 ∧ s.remain.toNat < s.bs
  /-- the finalizer starts when the whole buffer is consumed (44_block_driver.md R176) -/
  consumed : phDiffuse.toNat ≤ s.phase.toNat → s.remain = 0
  /-- HALVE starts from the L words of the fold (45_finalizer.md R208) -/
  halving : s.phase = phHalve → s.count = foldWords s.lwidth.toNat
  /-- EMIT starts from the digest words (45_finalizer.md R216) -/
  emitting : s.phase = phEmit → s.count = digestWords s.lwidth.toNat

/-- The block can take a command: not busy, not in the fatal state (60_exceptions.md R245). -/
abbrev State.idle (s : State) : Prop := s.busy = false ∧ s.fatal = false

/-- All addresses of a run are backed (20_memory.md R62). -/
def backedRun (m : Memory) (a n : Nat) : Bool := (List.range n).all fun j => m.backed (a + j)

/-- The bytes at a run of addresses, in address order; 0 where one is not backed. -/
def bytesAt (m : Memory) (a n : Nat) : List Byte := (List.range n).map fun j => (m.read (a + j)).getD 0

/-- The bytes that the engine's reads of a run of addresses return (20_memory.md R62, R75); 0 where one is not
backed. -/
def State.bufferBytes (s : State) (a n : Nat) : List Byte :=
  (List.range n).map fun j => (s.bufferByte (a + j)).getD 0

/-- The next thing that happens is the engine's turn, and `rest` is what remains of the host's script. -/
abbrev State.engineNext (s : State) (rest : List Event) : Prop :=
  s.script = .engine :: rest ∨ (s.script = [] ∧ rest = [])

/-- The next thing that happens is no reset. -/
abbrev State.notReset (s : State) : Prop := s.script.head? ≠ some .rst

/-- An access on the memory port reads the byte at `a`. -/
def PortRead.covers (r : PortRead) (a : Nat) : Bool := decide (r.address ≤ a ∧ a < r.address + r.size)

/-- A HASH is the next thing that happens, and it will run undisturbed: the block is idle, the configuration is
valid, the buffer is backed and holds no device (20_memory.md R62, R71), and the host does nothing after it. -/
structure HashIssued (s : State) : Prop where
  idle : s.idle
  valid : s.hashValid = true
  noDevice : s.deviceInBuffer = false
  backed : backedRun s.mem s.buf.toNat s.len.toNat = true
  script : s.script = [.write 0x000 4 0x00000010]

/-- The steps of a HASH that does not abort, its `CMD` write included: `(LEN div BS) + 7` phase steps
(44_block_driver.md R183). -/
def hashSteps (s : State) : Nat := 1 + (s.len.toNat / blockBytes s.width.toNat + 7)

end Sys2Proof.Machine
end

