-- ==== Sys2Proof/Certificates/Slice0/Obligations.lean ====
section
/-!
DEFINITION. The statements for the provers. Each names the rules of spec/ it formalises. Where a conclusion is
`exec i s = .next` of `s` with some fields replaced, every other field is unchanged: that is the frame.
-/

open Sys2Proof Sys2Proof.Machine

/-! ### Encoding -/

/-- 30_encoding.md R91, R92, R95: of the 2^32 command words exactly 1, 2 and 0x10 name a command; of the others,
those with a non-zero bit in 31:8 are rejected for it, and the rest for their opcode. -/
def Obligations.CommandDecodingIsTotalAndExact : Prop :=
  ∀ c : Word,
    (decode (.command c) = .ok .mix ↔ c = 0x00000001) ∧
    (decode (.command c) = .ok .mixc ↔ c = 0x00000002) ∧
    (decode (.command c) = .ok .hash ↔ c = 0x00000010) ∧
    (c ≠ 0x00000001 → c ≠ 0x00000002 → c ≠ 0x00000010 →
      decode (.command c) = .error (if 256 ≤ c.toNat then .reservedBits else .unknownOpcode))

/-- 30_encoding.md R91 to R93: the code of every instruction decodes to it, and no other code does. -/
def Obligations.DecodeInvertsEncode : Prop :=
  ∀ (i : Instr) (code : Code), decode code = .ok i ↔ code = encode i

/-- 30_encoding.md R92, R93: words written out from the tables, in the numbering of spec/opcode_table.json. -/
def Obligations.WrittenWordsDecode : Prop :=
  decodeTableWord 32 0b00000000000000000000000000000001 = some .mix ∧
  decodeTableWord 32 0b00000000000000000000000000000010 = some .mixc ∧
  decodeTableWord 32 0b00000000000000000000000000010000 = some .hash ∧
  decodeTableWord 8 0b0001 = some .seltier ∧ decodeTableWord 8 0b0010 = some .seedx ∧
  decodeTableWord 8 0b0011 = some .consume ∧ decodeTableWord 8 0b0100 = some .drain ∧
  decodeTableWord 8 0b0101 = some .diffuse ∧ decodeTableWord 8 0b0110 = some .fold ∧
  decodeTableWord 8 0b0111 = some .halve ∧ decodeTableWord 8 0b1000 = some .emit

/-! ### A step runs the decoded instruction -/

/-- 30_encoding.md R91, 60_exceptions.md R245: when the host's next action is a write of CMD with a word that
decodes to `i`, the step is `exec i` at the state with that action taken off the script. -/
def Obligations.StepIssuesTheDecodedCommand : Prop :=
  ∀ (s : State) (c : Word) (i : Instr) (rest : List Event),
    s.script = .write 0x000 4 c :: rest → decode (.command c) = .ok i →
    step s = exec i { s with script := rest }

/-- 44_block_driver.md R171, 10_state.md R34: when it is the engine's turn and PHASE decodes to `i` (and RESULT
holds no reserved code), the step is `exec i`. -/
def Obligations.StepRunsTheDecodedPhase : Prop :=
  ∀ (s : State) (i : Instr) (rest : List Event),
    s.engineNext rest → s.result.toNat ≤ 5 → decode (.phase s.phase) = .ok i →
    step s = exec i { s with script := rest }

/-- 10_state.md R34, 70_reset_and_hazards.md R288: the engine takes no step in IDLE and none in FATAL; a reserved
PHASE or RESULT code is the fatal state (10_state.md R35; that the turn looks at both codes is the model's reading,
notes/assumptions/13.md). -/
def Obligations.EngineTurnWithoutAPhaseStep : Prop :=
  ∀ (s : State) (rest : List Event), s.engineNext rest →
    (s.result.toNat ≤ 5 → s.phase = 0 ∨ s.phase = 15 → step s = .next { s with script := rest }) ∧
    (6 ≤ s.result.toNat ∨ (9 ≤ s.phase.toNat ∧ s.phase.toNat ≤ 14) →
      step s = .next { s with
        script := rest, fatal := true, result := 5, busy := false, phase := 15 })

/-! ### Commands -/

/-- 41_wordmix.md R125: an accepted MIX writes RES and RESULT and nothing else. -/
def Obligations.MixCompletes : Prop :=
  ∀ s : State, s.busy = false → s.fatal = false →
    exec .mix s = .next { s with
      res := add32 (rotl s.opa 11 ^^^ (s.opb ^^^ s.opa) ^^^ rotl (s.opb ^^^ s.opa) 13) (rotl (s.opb ^^^ s.opa) 19)
      result := 1 }

/-- 41_wordmix.md R126, R121: an accepted MIXC writes RES and RESULT and nothing else; OPB is ignored. -/
def Obligations.MixcCompletes : Prop :=
  ∀ s : State, s.busy = false → s.fatal = false →
    exec .mixc s = .next { s with res := mix s.opa Config.mixConst, result := 1 } ∧
    ∀ b : Word, exec .mixc { s with opb := b } =
      .next { s with opb := b, res := mix s.opa Config.mixConst, result := 1 }

/-- 44_block_driver.md R175, 10_state.md R47: acceptance of HASH. The last three fields are the model's own: the
race record and the port log start afresh, and the HASH gets a number (notes/assumptions/6.md, 10.md). -/
def Obligations.HashAcceptsAValidConfiguration : Prop :=
  ∀ s : State, s.busy = false → s.fatal = false →
    (s.width = 32 ∨ s.width = 64 ∨ s.width = 128 ∨ s.width = 256 ∨ s.width = 512 ∨ s.width = 1024) →
    s.tierreq.toNat ≤ 4 →
    (s.bufhi.toNat * 2 ^ 32 + s.buflo.toNat) + (s.lenhi.toNat * 2 ^ 32 + s.lenlo.toNat) ≤ 2 ^ 64 →
    s.deviceInBuffer = false →
    exec .hash s = .next { s with
      lseed := s.seed, lwidth := s.width, ltier := s.tierreq
      lbuf := BitVec.ofNat 64 (s.bufhi.toNat * 2 ^ 32 + s.buflo.toNat)
      llen := BitVec.ofNat 64 (s.lenhi.toNat * 2 ^ 32 + s.lenlo.toNat)
      cursor := 0, remain := BitVec.ofNat 64 (s.lenhi.toNat * 2 ^ 32 + s.lenlo.toNat)
      busy := true, dvalid := false, result := 0, digest := Vector.replicate 32 0, phase := 1
      raced := [], draws := s.draws + 1, reads := [] }

/-- 60_exceptions.md R247, 44_block_driver.md R173, R174: a HASH with an illegal width, a reserved tier request
or a buffer that crosses the top of the address space sets RESULT to ERR_CFG and changes nothing else. -/
def Obligations.HashRejectsABadConfiguration : Prop :=
  ∀ s : State, s.busy = false → s.fatal = false →
    (¬ (s.width = 32 ∨ s.width = 64 ∨ s.width = 128 ∨ s.width = 256 ∨ s.width = 512 ∨ s.width = 1024) ∨
      5 ≤ s.tierreq.toNat ∨
      2 ^ 64 < (s.bufhi.toNat * 2 ^ 32 + s.buflo.toNat) + (s.lenhi.toNat * 2 ^ 32 + s.lenlo.toNat)) →
    exec .hash s = .next { s with result := 2 }

/-- 20_memory.md R71: a launch on a buffer that holds a byte of a device region is refused by name. The form of a
device region is the model's (notes/assumptions/7.md). -/
def Obligations.HashOverADeviceIsRefused : Prop :=
  ∀ (s : State) (r : Region) (a : Nat), s.busy = false → s.fatal = false → s.hashValid = true →
    r ∈ s.devices → r.base ≤ a → a < r.base + r.size →
    s.buf.toNat ≤ a → a < s.buf.toNat + s.len.toNat →
    exec .hash s = .refused .deviceInBuffer

/-- 60_exceptions.md R245 lines 1 and 2: a command issued while BUSY = 1 is dropped and PERR set; one issued in
the fatal state is dropped. -/
def Obligations.CommandsAreDroppedWhileBusyOrFatal : Prop :=
  ∀ (s : State) (i : Instr), i = .mix ∨ i = .mixc ∨ i = .hash →
    (s.busy = true → exec i s = .next { s with perr := true }) ∧
    (s.busy = false → s.fatal = true → exec i s = .next s)

/-- 60_exceptions.md R246: a word that is no command, written to CMD, sets RESULT to ERR_CMD; nothing else
changes. -/
def Obligations.IllegalCommandSetsResultOnly : Prop :=
  ∀ (s : State) (c : Word) (rest : List Event),
    s.script = .write 0x000 4 c :: rest → s.busy = false → s.fatal = false →
    c ≠ 0x00000001 → c ≠ 0x00000002 → c ≠ 0x00000010 →
    step s = .next { s with script := rest, result := 3 }

/-! ### The register interface -/

/-- 60_exceptions.md R248, R245 line 1: a write of any register while BUSY = 1 is dropped and sets PERR. -/
def Obligations.RegisterWriteWhileBusySetsPerr : Prop :=
  ∀ (s : State) (offset : Nat) (v : Word) (rest : List Event),
    s.script = .write offset 4 v :: rest → offset % 4 = 0 → s.busy = true →
    step s = .next { s with script := rest, perr := true }

/-- 10_state.md R37 to R42: a write of a read-write register while BUSY = 0 stores the value (TIERREQ its bits
2:0), by the offsets of R26, and changes nothing else. -/
def Obligations.RegisterWritesStoreTheValue : Prop :=
  ∀ (s : State) (offset : Nat) (v : Word) (rest : List Event),
    s.script = .write offset 4 v :: rest → s.busy = false →
    (offset = 0x008 → step s = .next { s with script := rest, seed := v }) ∧
    (offset = 0x00C → step s = .next { s with script := rest, width := v }) ∧
    (offset = 0x010 → step s = .next { s with script := rest, tierreq := BitVec.ofNat 3 (v.toNat % 8) }) ∧
    (offset = 0x014 → step s = .next { s with script := rest, buflo := v }) ∧
    (offset = 0x018 → step s = .next { s with script := rest, bufhi := v }) ∧
    (offset = 0x01C → step s = .next { s with script := rest, lenlo := v }) ∧
    (offset = 0x020 → step s = .next { s with script := rest, lenhi := v }) ∧
    (offset = 0x024 → step s = .next { s with script := rest, opa := v }) ∧
    (offset = 0x028 → step s = .next { s with script := rest, opb := v })

/-- 10_state.md R46: a write to a read-only register or a reserved offset while BUSY = 0 is ignored and sets no
flag; a read of a reserved offset returns 0. -/
def Obligations.ReadOnlyAndReservedOffsetsIgnoreWrites : Prop :=
  ∀ (s : State) (offset : Nat) (v : Word) (rest : List Event), offset % 4 = 0 →
    (s.script = .write offset 4 v :: rest → s.busy = false →
      offset = 0x004 ∨ offset = 0x02C ∨ 0x030 ≤ offset → step s = .next { s with script := rest }) ∧
    (s.script = .read offset 4 :: rest → (0x034 ≤ offset ∧ offset < 0x080) ∨ 0x100 ≤ offset →
      step s = .next { s with script := rest, rdata := some 0 })

/-- 10_state.md R26, R27, R28, R37 to R45: what an aligned 32-bit read returns; it changes nothing (`rdata` is
where the model leaves the value read). -/
def Obligations.RegisterReadsReturnTheMap : Prop :=
  ∀ (s : State) (offset : Nat) (rest : List Event), s.script = .read offset 4 :: rest → offset % 4 = 0 →
    ∃ v, step s = .next { s with script := rest, rdata := some v } ∧
      (offset = 0x000 → v = 0) ∧ (offset = 0x004 → v = s.statusWord) ∧ (offset = 0x008 → v = s.seed) ∧
      (offset = 0x00C → v = s.width) ∧ (offset = 0x010 → v.toNat = s.tierreq.toNat) ∧
      (offset = 0x014 → v = s.buflo) ∧ (offset = 0x018 → v = s.bufhi) ∧ (offset = 0x01C → v = s.lenlo) ∧
      (offset = 0x020 → v = s.lenhi) ∧ (offset = 0x024 → v = s.opa) ∧ (offset = 0x028 → v = s.opb) ∧
      (offset = 0x02C → v = s.res) ∧
      (offset = 0x030 → v.toNat = Config.cap128.toNat + 2 * Config.cap256.toNat + 4 * Config.cap512.toNat) ∧
      (∀ k, k < 32 → offset = 0x080 + 4 * k → v = if s.dvalid then entry s.digest k else 0)

/-- 10_state.md R26: an access of another size, or at an offset that is not a multiple of 4, is refused. -/
def Obligations.MisshapenAccessIsRefused : Prop :=
  ∀ (s : State) (offset size : Nat) (v : Word) (rest : List Event),
    s.script = .write offset size v :: rest ∨ s.script = .read offset size :: rest →
    size ≠ 4 ∨ offset % 4 ≠ 0 → step s = .refused .accessShape

/-- 10_state.md R28: the fields of STATUS and its reserved bits. -/
def Obligations.StatusWordHasItsFields : Prop :=
  ∀ s : State,
    s.statusWord.getLsbD 0 = s.busy ∧ s.statusWord.getLsbD 1 = s.dvalid ∧
    s.statusWord.getLsbD 2 = s.perr ∧ s.statusWord.getLsbD 3 = s.fatal ∧
    s.statusWord.extractLsb' 4 4 = s.result ∧ s.statusWord.extractLsb' 8 2 = s.tier ∧
    s.statusWord.extractLsb' 10 2 = 0 ∧ s.statusWord.extractLsb' 12 4 = s.phase ∧
    s.statusWord.extractLsb' 16 16 = 0

/-- 10_state.md R52: RST in any state gives every piece of state the value of the reset table. -/
def Obligations.ResetGivesTheTable : Prop :=
  ∀ (s : State) (rest : List Event), s.script = .rst :: rest →
    ∃ t, step s = .next t ∧
      t.busy = false ∧ t.dvalid = false ∧ t.perr = false ∧ t.fatal = false ∧ t.result = 0 ∧ t.tier = 0 ∧
      t.phase = 0 ∧ t.statusWord = 0 ∧
      t.seed = 0 ∧ t.width = 0 ∧ t.tierreq = 0 ∧ t.buflo = 0 ∧ t.bufhi = 0 ∧ t.lenlo = 0 ∧ t.lenhi = 0 ∧
      t.opa = 0 ∧ t.opb = 0 ∧ t.res = 0 ∧ (∀ k, k < 32 → entry t.digest k = 0) ∧
      t.cursor = 0 ∧ t.remain = 0

/-! ### Promises about every step -/

/-- 20_memory.md R61: no instruction writes the buffer memory, an operand or configuration register, or the
platform: the outputs of the block are STATUS, RES and DIGEST. -/
def Obligations.InstructionsWriteNoMemoryAndNoOperand : Prop :=
  ∀ (i : Instr) (s t : State), exec i s = .next t →
    (∀ a, t.mem.read a = s.mem.read a) ∧
    t = { s with
      res := t.res, digest := t.digest
      busy := t.busy, dvalid := t.dvalid, perr := t.perr, fatal := t.fatal, result := t.result, tier := t.tier
      phase := t.phase, cursor := t.cursor, remain := t.remain, h := t.h
      lseed := t.lseed, lwidth := t.lwidth, ltier := t.ltier, lbuf := t.lbuf, llen := t.llen
      seedw := t.seedw, blk := t.blk, p := t.p, count := t.count
      raced := t.raced, draws := t.draws, reads := t.reads }

/-- 00_scope.md R10: `Backed` never changes; 20_memory.md R61: no step of the engine changes a byte of the buffer
memory. THE MODEL'S CHOICES, stated with them and no rule of the spec: the device regions never change
(notes/assumptions/7.md), RST changes no byte (notes/assumptions/16.md), and a store of the host changes a byte only
where the platform backs its address (notes/assumptions/5.md). -/
def Obligations.ThePlatformIsConstant : Prop :=
  ∀ s t : State, step s = .next t →
    t.devices = s.devices ∧ (∀ a, t.mem.backed a = s.mem.backed a) ∧
    (∀ a, t.mem.read a ≠ s.mem.read a → ∃ v rest, s.script = .store a v :: rest ∧ t.mem.read a = some v)

/-- 10_state.md R31: PERR is set by a register write while BUSY = 1 and by nothing else, and only reset clears
PERR or FATAL. FATAL is set only by a turn of the engine that finds one of the causes of 60_exceptions.md R250: an
illegal LWIDTH or LTIER > 4 in a phase step, a reserved PHASE code, `COUNT ≠ LWIDTH/32` at EMIT; or a reserved RESULT
code (10_state.md R35; notes/assumptions/12.md, 13.md). -/
def Obligations.StickyFlagsClearOnlyByReset : Prop :=
  ∀ s t : State, step s = .next t →
    (s.notReset → (s.perr = true → t.perr = true) ∧ (s.fatal = true → t.fatal = true)) ∧
    (s.perr = false → t.perr = true →
      s.busy = true ∧ ∃ offset v rest, s.script = .write offset 4 v :: rest) ∧
    (s.fatal = false → t.fatal = true → (∃ rest, s.engineNext rest) ∧
      ((1 ≤ s.phase.toNat ∧ s.phase.toNat ≤ 8 ∧ (legalWidth s.lwidth = false ∨ 5 ≤ s.ltier.toNat)) ∨
        (9 ≤ s.phase.toNat ∧ s.phase.toNat ≤ 14) ∨ 6 ≤ s.result.toNat ∨
        (s.phase = phEmit ∧ s.count ≠ s.lwidth.toNat / 32)))

/-- 10_state.md R43: RES is written by MIX and MIXC only (and by reset). -/
def Obligations.ResIsWrittenByMixAndMixcOnly : Prop :=
  ∀ s t : State, step s = .next t → s.notReset → t.res ≠ s.res →
    s.busy = false ∧ s.fatal = false ∧
    ∃ c rest, s.script = .write 0x000 4 c :: rest ∧
      ((c = 1 ∧ t.res = mix s.opa s.opb) ∨ (c = 2 ∧ t.res = mix1 Config.mixConst s.opa))

/-- 10_state.md R30, R45: DVALID goes to 1 only in EMIT, and DVALID and DIGEST leave a digest only by the
acceptance of a HASH (or reset): a rejected command leaves them as they were. -/
def Obligations.TheDigestComesFromEmitOnly : Prop :=
  ∀ s t : State, Consistent s → step s = .next t → s.notReset →
    (s.dvalid = false → t.dvalid = true → s.phase = phEmit ∧ ∃ rest, s.engineNext rest) ∧
    (s.dvalid = true → t.dvalid = true ∧ t.digest = s.digest ∨
      (t.dvalid = false ∧ t.busy = true ∧ ∃ rest, s.script = .write 0x000 4 0x00000010 :: rest))

/-- 10_state.md R29: BUSY goes to 1 only by the acceptance of a HASH, and goes to 0 only by EMIT, by a bus-error
abort or by the fatal state (or reset). -/
def Obligations.BusyFollowsTheHash : Prop :=
  ∀ s t : State, step s = .next t → s.notReset →
    (s.busy = false → t.busy = true →
      t.phase = phSeltier ∧ ∃ rest, s.script = .write 0x000 4 0x00000010 :: rest) ∧
    (s.busy = true → t.busy = false → (∃ rest, s.engineNext rest) ∧
      ((s.phase = phEmit ∧ t.result = resOk) ∨
        ((s.phase = phConsuming ∨ s.phase = phDraining) ∧ t.result = resErrBus) ∨
        (t.fatal = true ∧ t.result = resErrFatal)))

/-! ### The Tier Selector -/

/-- 46_tier_selector.md R232, R231: `selectTier` gives the largest tier that is at most the upper bound, capable
and aligned, for every capability, request and address; what aligned and capable mean, tier by tier; and which flag
of this instance of the block is which tier's. -/
def Obligations.SelectTierIsTheWidestCapableAligned : Prop :=
  ∀ (c : Capabilities) (req : Nat) (addr : Addr) (upper : Nat), req ≤ 4 →
    (req = 0 → upper ≤ 3 ∧ c.capable upper = true ∧ ∀ t, t ≤ 3 → c.capable t = true → t ≤ upper) →
    (req ≠ 0 → upper + 1 = req) →
    selectTier c req addr ≤ upper ∧
    c.capable (selectTier c req addr) = true ∧ tierAligned (selectTier c req addr) addr = true ∧
    (∀ t, t ≤ upper → c.capable t = true → tierAligned t addr = true → t ≤ selectTier c req addr) ∧
    (tierAligned 1 addr = true ↔ addr.toNat % 16 = 0) ∧
    (tierAligned 2 addr = true ↔ addr.toNat % 32 = 0) ∧
    (tierAligned 3 addr = true ↔ addr.toNat % 64 = 0) ∧
    c.capable 0 = true ∧ c.capable 1 = c.cap128 ∧ c.capable 2 = c.cap256 ∧ c.capable 3 = c.cap512 ∧
    capabilities.capable 1 = Config.cap128 ∧ capabilities.capable 2 = Config.cap256 ∧
    capabilities.capable 3 = Config.cap512

/-- 46_tier_selector.md R233: SELTIER records the selected tier and goes on to SEEDX; nothing else changes. -/
def Obligations.SeltierRecordsTheTier : Prop :=
  ∀ s : State, s.contractHolds = true →
    ∃ t, exec .seltier s = .next t ∧ t.tier.toNat = selectTier capabilities s.ltier.toNat s.lbuf ∧
      t.phase = 2 ∧ t = { s with tier := t.tier, phase := t.phase }

/-! ### Seed Expansion -/

/-- 42_seed_expansion.md R141 (with R140): after SEEDX all N words of lane `l` equal `s_l`, `SEEDW` holds
`mix1(s4)`, the other words of the storage and `SEED` are unchanged, and the next phase is CONSUMING or DRAINING
by R171. -/
def Obligations.SeedxFillsTheLanes : Prop :=
  ∀ s : State, s.contractHolds = true →
    ∃ t, exec .seedx s = .next t ∧
      (∀ i, i < s.n →
        t.h.word 1 i = s.lseed ∧
        t.h.word 2 i = mix s.lseed Config.mixConst ∧
        t.h.word 3 i = mix (mix s.lseed Config.mixConst) Config.mixConst ∧
        t.h.word 4 i = mix (mix (mix s.lseed Config.mixConst) Config.mixConst) Config.mixConst) ∧
      (∀ l i, 1 ≤ l → l ≤ 4 → s.n ≤ i → t.h.word l i = s.h.word l i) ∧
      t.seedw = mix (mix (mix (mix s.lseed Config.mixConst) Config.mixConst) Config.mixConst) Config.mixConst ∧
      t.phase = (if s.bs ≤ s.remain.toNat then 3 else 4) ∧
      t = { s with h := t.h, seedw := t.seedw, phase := t.phase }

/-! ### The Mixing Round -/

/-- 43_mixing_round.md R154: the closed form of a round at one word index, and R22: words with index ≥ N are
neither read nor written. -/
def Obligations.RoundHasTheClosedForm : Prop :=
  ∀ (n : Nat) (w : List Word) (h : Lanes) (i : Nat), n ≤ 64 →
    (i < n →
      let a := h.word 1 i
      let b := h.word 2 i
      let c := h.word 3 i
      let d := h.word 4 i
      let s1 := a ^^^ b ^^^ w.getD i 0
      let a1 := rotl a 11 ^^^ s1 ^^^ shl s1 14
      let b1 := rotl s1 19
      let s2 := b1 ^^^ c ^^^ w.getD (n + i) 0
      let c1 := rotl s2 19
      let s3 := c1 ^^^ d ^^^ w.getD (2 * n + i) 0
      let d1 := rotl s3 19
      let s4 := d1 ^^^ a1 ^^^ w.getD (3 * n + i) 0
      (scalarRound n w h).word 1 i = rotl s4 19 ∧
      (scalarRound n w h).word 2 i = rotl b1 11 ^^^ s2 ^^^ shl s2 14 ∧
      (scalarRound n w h).word 3 i = rotl c1 11 ^^^ s3 ^^^ shl s3 14 ∧
      (scalarRound n w h).word 4 i = rotl d1 11 ^^^ s4 ^^^ shl s4 14) ∧
    (n ≤ i → ∀ l, 1 ≤ l → l ≤ 4 → (scalarRound n w h).word l i = h.word l i)

/-- 43_mixing_round.md R156: for any two tiers and the same lanes and block the resulting lanes are
bit-identical, at every legal width; and each tier's round is the scalar definition. -/
def Obligations.TiersComputeTheSameRound : Prop :=
  ∀ (t1 t2 : BitVec 2) (width : Word) (w : List Word) (h : Lanes), legalWidth width = true →
    tierRound (tierWords t1) (laneWords width.toNat) w h = tierRound (tierWords t2) (laneWords width.toNat) w h ∧
    tierRound (tierWords t1) (laneWords width.toNat) w h = scalarRound (laneWords width.toNat) w h

/-! ### The Block/Padding Driver -/

/-- 20_memory.md R63, R64: word `k` of a run of bytes is bytes `4k .. 4k+3`, the byte at the lowest address in
the least significant place. -/
def Obligations.BlockWordsAreLittleEndian : Prop :=
  ∀ (bytes : List Byte) (k : Nat), 4 * k + 4 ≤ bytes.length →
    ((wordsOf bytes).getD k 0).toNat =
      (bytes.getD (4 * k) 0).toNat + 2 ^ 8 * (bytes.getD (4 * k + 1) 0).toNat +
      2 ^ 16 * (bytes.getD (4 * k + 2) 0).toNat + 2 ^ 24 * (bytes.getD (4 * k + 3) 0).toNat

/-- 44_block_driver.md R177: CONSUME on a full block of backed bytes mixes it by the scalar round (whatever the
tier, R156), advances CURSOR and REMAIN by BS and goes on by R171. Nothing else changes but the log of port
reads, the model's own field (notes/assumptions/10.md). -/
def Obligations.ConsumeMixesOneBlock : Prop :=
  ∀ s : State, s.contractHolds = true → s.bs ≤ s.remain.toNat →
    backedRun s.mem (s.lbuf.toNat + s.cursor.toNat) s.bs = true →
    ∃ t, exec .consume s = .next t ∧
      t.h = scalarRound s.n (wordsOf (s.bufferBytes (s.lbuf.toNat + s.cursor.toNat) s.bs)) s.h ∧
      t.cursor = s.cursor + BitVec.ofNat 64 s.bs ∧
      t.remain.toNat = s.remain.toNat - s.bs ∧
      t.phase = (if s.bs ≤ s.remain.toNat - s.bs then 3 else 4) ∧
      t = { s with
        h := t.h, cursor := t.cursor, remain := t.remain, phase := t.phase, reads := t.reads }

/-- 44_block_driver.md R178, R179: DRAIN with its REMAIN tail bytes backed fills all of the scratch block: the
tail, then pad bytes 1, 2, ... mod 256; mixes it once by the scalar round; and goes on to DIFFUSE. -/
def Obligations.DrainPadsAndMixesOnce : Prop :=
  ∀ s : State, s.contractHolds = true → s.remain.toNat < s.bs →
    backedRun s.mem (s.lbuf.toNat + s.cursor.toNat) s.remain.toNat = true →
    ∃ t, exec .drain s = .next t ∧
      (∀ j, j < s.remain.toNat →
        some (entry t.blk j) = s.bufferByte (s.lbuf.toNat + s.cursor.toNat + j)) ∧
      (∀ j, s.remain.toNat ≤ j → j < s.bs →
        (entry t.blk j).toNat = (j - s.remain.toNat + 1) % 256) ∧
      (∀ j, s.bs ≤ j → entry t.blk j = entry s.blk j) ∧
      t.h = scalarRound s.n (wordsOf ((List.range s.bs).map fun j => entry t.blk j)) s.h ∧
      t.cursor = s.cursor + s.remain ∧ t.remain = 0 ∧ t.phase = 5 ∧
      t = { s with
        blk := t.blk, h := t.h, cursor := t.cursor, remain := t.remain, phase := t.phase, reads := t.reads }

/-- 60_exceptions.md R249: in CONSUME or DRAIN a byte that the platform does not back ends the HASH in one
transition: RESULT 4, BUSY 0, phase IDLE; DVALID stays 0 and DIGEST all zero; the round is not executed; and the
block takes the next command. -/
def Obligations.BusErrorEndsTheHash : Prop :=
  ∀ s : State, Consistent s →
    ∀ i a, (s.phase = phConsuming ∧ i = .consume ∧ a < s.bs) ∨
      (s.phase = phDraining ∧ i = .drain ∧ a < s.remain.toNat) →
    s.mem.backed (s.lbuf.toNat + s.cursor.toNat + a) = false →
    ∃ t, exec i s = .next t ∧ t.result = 4 ∧ t.busy = false ∧ t.phase = 0 ∧ t.dvalid = false ∧
      (∀ k, k < 32 → entry t.digest k = 0) ∧ t.h = s.h ∧ t.idle ∧
      t = { s with
        result := t.result, busy := t.busy, phase := t.phase, blk := t.blk, reads := t.reads }

/-- 20_memory.md R69, R68, R70: every access of CONSUME has the size of the selected tier, 4, 16, 32 or 64 bytes,
and a vector access is aligned to it; every access of DRAIN has one byte; and where the bytes are backed, the
accesses of the step read each byte of the block, or of the tail, exactly once and no other. The accesses are those
that the step adds to the log of port reads (notes/assumptions/10.md). -/
def Obligations.PortAccessesFollowTheTier : Prop :=
  ∀ s t : State, Consistent s →
    (s.phase = phConsuming → exec .consume s = .next t →
      ∃ new, t.reads = s.reads ++ new ∧
        (∀ r ∈ new, r.size = 4 * tierWords s.tier ∧ (s.tier ≠ 0 → r.address % r.size = 0)) ∧
        (backedRun s.mem (s.lbuf.toNat + s.cursor.toNat) s.bs = true →
          ∀ a, (new.filter fun r => r.covers a).length =
            if s.lbuf.toNat + s.cursor.toNat ≤ a ∧ a < s.lbuf.toNat + s.cursor.toNat + s.bs then 1 else 0)) ∧
    (s.phase = phDraining → exec .drain s = .next t →
      ∃ new, t.reads = s.reads ++ new ∧ (∀ r ∈ new, r.size = 1) ∧
        (backedRun s.mem (s.lbuf.toNat + s.cursor.toNat) s.remain.toNat = true →
          ∀ a, (new.filter fun r => r.covers a).length =
            if s.lbuf.toNat + s.cursor.toNat ≤ a ∧ a < s.lbuf.toNat + s.cursor.toNat + s.remain.toNat
            then 1 else 0))

/-! ### The Finalizer -/

/-- 45_finalizer.md R200, R201: DIFFUSE XORs `mix1` of the low 31 bits of the length into every lane word, then
applies the diffusion passes, and goes on to FOLD; nothing else changes. -/
def Obligations.DiffuseMixesTheLengthAndDiffuses : Prop :=
  ∀ s : State, s.contractHolds = true →
    ∃ h, (∀ l i, 1 ≤ l → l ≤ 4 →
        h.word l i = if i < s.n
          then s.h.word l i ^^^ mix (BitVec.ofNat 32 (s.llen.toNat % 2 ^ 31)) Config.mixConst
          else s.h.word l i) ∧
      exec .diffuse s = .next { s with h := diffusePasses s.n h, phase := 6 }

/-- 45_finalizer.md R203 (a), 10_state.md R22: whatever the program, the diffusion passes read no lane word with
index ≥ N and leave those words as they are. -/
def Obligations.DiffusionReadsTheLaneWordsOnly : Prop :=
  ∀ (c : Word) (prog : DiffuseProgram) (n : Nat) (g h : Lanes),
    (∀ l i, 1 ≤ l → l ≤ 4 → i < n → g.word l i = h.word l i) →
    (∀ l i, 1 ≤ l → l ≤ 4 → i < n → (runProgram c prog n g).word l i = (runProgram c prog n h).word l i) ∧
    (∀ l i, 1 ≤ l → l ≤ 4 → n ≤ i → (runProgram c prog n g).word l i = g.word l i)

/-- 45_finalizer.md R205, R203: the reference instantiation is one of the admitted programs. -/
def Obligations.TheReferencePassesAreAdmitted : Prop :=
  ∀ (c : Word) (n : Nat) (h : Lanes),
    runProgram c referenceProgram n h = diffuseReference c n h

/-- 45_finalizer.md R208, R207: FOLD writes provisional word `i` as the XOR of `mix` of the two chunk words of
each term, with the chunks in lane order, COUNT = L, and goes on to HALVE; H and the rest are unchanged. -/
def Obligations.FoldGivesTheProvisionalWords : Prop :=
  ∀ s : State, s.contractHolds = true →
    let l := max (s.lwidth.toNat / 32) 4
    let cs := 4 * s.n / l
    let chunk := fun c j => s.h.word (c / (l / 4) + 1) (c % (l / 4) * cs + j)
    ∃ t, exec .fold s = .next t ∧
      (∀ i, i < l → entry t.p i =
        (List.range cs).foldr
          (fun j acc => mix (chunk ((i + j) % l) j) (chunk ((i + j + l / 2) % l) (cs - 1 - j)) ^^^ acc) 0) ∧
      (∀ i, l ≤ i → entry t.p i = entry s.p i) ∧
      t.count = l ∧ t.phase = 7 ∧
      t = { s with p := t.p, count := t.count, phase := t.phase }

/-- 45_finalizer.md R209: the index pattern of the fold written out, for L = 4 and for the first word at L = 8. -/
def Obligations.FoldIndexPatternWrittenOut : Prop :=
  ∀ h : Lanes,
    (∀ (width i : Nat), width = 32 ∨ width = 64 ∨ width = 128 → i < 4 →
      foldWord width h i = (List.range 16).foldl
        (fun acc j => acc ^^^ mix (h.word ((i + j) % 4 + 1) j) (h.word ((i + j + 2) % 4 + 1) (15 - j))) 0) ∧
    foldWord 256 h 0 =
      mix (h.word 1 0) (h.word 3 7) ^^^ mix (h.word 1 9) (h.word 3 14) ^^^
      mix (h.word 2 2) (h.word 4 5) ^^^ mix (h.word 2 11) (h.word 4 12) ^^^
      mix (h.word 3 4) (h.word 1 3) ^^^ mix (h.word 3 13) (h.word 1 10) ^^^
      mix (h.word 4 6) (h.word 2 1) ^^^ mix (h.word 4 15) (h.word 2 8)

/-- 45_finalizer.md R212: from the L words of the fold, HALVE leaves `width/32` words: two halvings at width 32,
one at width 64, none above; then EMIT. Only P, COUNT and PHASE change. -/
def Obligations.HalveLeavesTheDigestWords : Prop :=
  ∀ s : State, s.contractHolds = true → s.count = max (s.lwidth.toNat / 32) 4 →
    ∃ t, exec .halve s = .next t ∧ t.count = s.lwidth.toNat / 32 ∧ t.phase = 8 ∧
      (s.lwidth = 32 → entry t.p 0 =
        mix (mix (entry s.p 0) (entry s.p 3)) (mix (entry s.p 1) (entry s.p 2))) ∧
      (s.lwidth = 64 → entry t.p 0 = mix (entry s.p 0) (entry s.p 3) ∧
        entry t.p 1 = mix (entry s.p 1) (entry s.p 2)) ∧
      (128 ≤ s.lwidth.toNat → t.p = s.p) ∧
      t = { s with p := t.p, count := t.count, phase := t.phase }

/-- 45_finalizer.md R216, R215: EMIT writes the digest registers, zeros in the unused ones, and ends the command
in one transition; nothing else changes. -/
def Obligations.EmitPublishesTheDigest : Prop :=
  ∀ s : State, s.contractHolds = true → s.count = s.lwidth.toNat / 32 →
    ∃ t, exec .emit s = .next t ∧
      (∀ k, k < s.lwidth.toNat / 32 → entry t.digest k = entry s.p k) ∧
      (∀ k, s.lwidth.toNat / 32 ≤ k → entry t.digest k = 0) ∧
      t.dvalid = true ∧ t.result = 1 ∧ t.busy = false ∧ t.phase = 0 ∧
      t = { s with
        digest := t.digest, dvalid := t.dvalid, result := t.result, busy := t.busy, phase := t.phase }

/-- 45_finalizer.md R213: for one input the 128-bit digest is `P[0..3]`, the 64-bit digest is
`(mix(P0, P3), mix(P1, P2))`, and the 32-bit digest is the `mix` of the two words of the 64-bit digest, for every
value of the two open parameters; and VH's own known vectors obey it. -/
def Obligations.NarrowDigestsComeFromTheWideOne : Prop :=
  (∀ (c : Word) (diffuse : Nat → Lanes → Lanes) (bytes : List Byte) (seed : Word),
    let d128 := hashDigest c diffuse bytes seed 128
    let d64 := hashDigest c diffuse bytes seed 64
    let d32 := hashDigest c diffuse bytes seed 32
    (∀ i, i < 4 → entry d128 i = foldWord 128 (hashLanes c diffuse bytes seed 128) i) ∧
    entry d64 0 = mix (entry d128 0) (entry d128 3) ∧ entry d64 1 = mix (entry d128 1) (entry d128 2) ∧
    entry d32 0 = mix (entry d64 0) (entry d64 1)) ∧
  mix 0x73711a77 0xd6031b6f = 0x7647d9bd

/-! ### The fatal state -/

/-- 60_exceptions.md R250, 46_tier_selector.md R233: a phase step that finds an illegal `LWIDTH` or `LTIER > 4`,
and EMIT with `COUNT ≠ LWIDTH/32`, enter the fatal state. That every phase step checks both values is the model's
reading (notes/assumptions/12.md). -/
def Obligations.BrokenContractIsFatal : Prop :=
  ∀ (s : State) (i : Instr),
    (legalWidth s.lwidth = false ∨ 5 ≤ s.ltier.toNat →
      i = .seltier ∨ i = .seedx ∨ i = .consume ∨ i = .drain ∨ i = .diffuse ∨ i = .fold ∨ i = .halve ∨
        i = .emit →
      exec i s = .next { s with fatal := true, result := 5, busy := false, phase := 15 }) ∧
    (s.count ≠ s.lwidth.toNat / 32 →
      exec .emit s = .next { s with fatal := true, result := 5, busy := false, phase := 15 })

/-- 60_exceptions.md R250: in the fatal state every command is dropped and the engine takes no step; only reset
leaves it. -/
def Obligations.OnlyResetLeavesTheFatalState : Prop :=
  ∀ s t : State, s.fatal = true → s.busy = false → s.phase = 15 → s.result = 5 → step s = .next t →
    s.notReset →
    t.fatal = true ∧ t.busy = false ∧ t.phase = 15 ∧ t.result = 5 ∧
    t.dvalid = s.dvalid ∧ t.digest = s.digest ∧ t.res = s.res ∧ t.h = s.h ∧ t.reads = s.reads

/-! ### Invariants -/

/-- The reset state is consistent (10_state.md R52). -/
def Obligations.ResetIsConsistent : Prop := Consistent State.reset

/-- Every step from a consistent state, in a run or not, gives a consistent state (10_state.md R25, R29, R30,
R45; 44_block_driver.md R171; 60_exceptions.md R250). -/
def Obligations.EveryStepKeepsConsistency : Prop :=
  ∀ s t : State, Consistent s → step s = .next t → Consistent t

/-- 60_exceptions.md R250: "With correct hardware it is unreachable": no run from a consistent state enters the
fatal state, whatever the host does. -/
def Obligations.TheFatalStateIsUnreachable : Prop :=
  ∀ (k : Nat) (s t : State), Consistent s → Sys2Proof.core.run k s = .next t →
    t.fatal = false ∧ t.result ≠ 5 ∧ t.phase ≠ 15

/-! ### The race on the buffer -/

/-- 20_memory.md R75: if the host writes a buffer byte while BUSY = 1, the engine's read of it returns the old
value or the new one (or one that the byte held before during the same HASH: the model's reading for repeated
stores, notes/assumptions/6.md), and no other byte is concerned. -/
def Obligations.ARacedReadReturnsOldOrNew : Prop :=
  ∀ (s : State) (a : Nat) (v old : Byte), s.busy = true → s.mem.read a = some old →
    (∃ b, (s.storeByte a v).bufferByte a = some b ∧ (b = v ∨ b = old ∨ b ∈ oldValues s.raced a)) ∧
    (∀ a', a' ≠ a → (s.storeByte a v).bufferByte a' = s.bufferByte a')

/-! ### Whole HASH commands -/

/-- 44_block_driver.md R172, R170: a HASH that runs undisturbed ends with the digest of its bytes, seed and width
as one function of them, DVALID 1, RESULT OK, IDLE; PERR, RES, and the registers the host wrote are as before, and
STATUS.TIER is the selected tier. -/
def Obligations.HashRunEndsWithTheDigest : Prop :=
  ∀ s : State, HashIssued s →
    ∃ t, Sys2Proof.core.run (hashSteps s) s = .next t ∧
      t.digest = digestAt (bytesAt s.mem s.buf.toNat s.len.toNat) s.seed s.width.toNat ∧
      t.dvalid = true ∧ t.result = 1 ∧ t.busy = false ∧ t.phase = 0 ∧ t.fatal = false ∧
      t.tier.toNat = selectTier capabilities s.tierreq.toNat s.buf ∧
      t.perr = s.perr ∧ t.res = s.res ∧ t.seed = s.seed ∧ t.width = s.width ∧ t.tierreq = s.tierreq ∧
      t.mem = s.mem

/-- 44_block_driver.md R183: an accepted HASH that does not abort is busy after its `CMD` write and after each of
its first `(LEN div BS) + 6` phase steps, and idle after the next one. -/
def Obligations.HashTakesExactlyItsPhaseSteps : Prop :=
  ∀ s : State, HashIssued s →
    (∀ k, k < s.len.toNat / blockBytes s.width.toNat + 7 →
      ∃ u, Sys2Proof.core.run (k + 1) s = .next u ∧ u.busy = true ∧ u.dvalid = false) ∧
    ∃ t, Sys2Proof.core.run (s.len.toNat / blockBytes s.width.toNat + 8) s = .next t ∧ t.busy = false ∧
      t.phase = 0

/-- Derived from 44_block_driver.md R172, 46_tier_selector.md R235 and 00_scope.md R3: two HASH commands on the
same bytes, seed and width end with the same digest, whatever their tier requests, their buffer addresses and
everything that happened before. The two run on ONE instance of the block, so the capability flags, constants with no
body, are the same in both; that the digest does not depend on them is in HashRunEndsWithTheDigest, whose digest
does not name them. -/
def Obligations.TheDigestIgnoresTierAddressAndHistory : Prop :=
  ∀ s s' : State, HashIssued s → HashIssued s' →
    s.seed = s'.seed → s.width = s'.width → s.len = s'.len →
    bytesAt s.mem s.buf.toNat s.len.toNat = bytesAt s'.mem s'.buf.toNat s'.len.toNat →
    ∃ t t', Sys2Proof.core.run (hashSteps s) s = .next t ∧ Sys2Proof.core.run (hashSteps s') s' = .next t' ∧
      t.dvalid = true ∧ t'.dvalid = true ∧ t.digest = t'.digest

/-- 20_memory.md R70: a HASH that does not abort reads each byte of its buffer exactly once, and no other
address, by the log of port reads (notes/assumptions/10.md). -/
def Obligations.HashReadsEachBufferByteOnce : Prop :=
  ∀ s : State, HashIssued s →
    ∃ t, Sys2Proof.core.run (hashSteps s) s = .next t ∧
      ∀ a, (t.reads.filter fun r => r.covers a).length =
        if s.buf.toNat ≤ a ∧ a < s.buf.toNat + s.len.toNat then 1 else 0

/-- 44_block_driver.md R186, 20_memory.md R70: no phase step depends on memory outside the latched buffer. -/
def Obligations.PhaseStepsIgnoreMemoryOutsideTheBuffer : Prop :=
  ∀ (s t : State) (m : Memory) (i : Instr), Consistent s → decode (.phase s.phase) = .ok i →
    (∀ a, s.lbuf.toNat ≤ a → a < s.lbuf.toNat + s.llen.toNat → m.read a = s.mem.read a) →
    exec i s = .next t → exec i { s with mem := m } = .next { t with mem := m }

/-! ### The Word-Mix Primitive and the hex string -/

/-- 41_wordmix.md R123: `add32` wraps. -/
def Obligations.AddWrapsModuloTwoToThe32 : Prop :=
  add32 0xffffffff 1 = 0 ∧ add32 0xffffffff 2 = 1 ∧
  ∀ x y : Word, (add32 x y).toNat = (x.toNat + y.toNat) % 2 ^ 32

/-- 41_wordmix.md R124: the identities of `mix`; it is not commutative, and exchanging the operands changes only
the `rotl(a, 11)` term. -/
def Obligations.MixObeysItsIdentities : Prop :=
  mix 0 0 = 0 ∧ (∀ a, mix a a = rotl a 11) ∧
  (∀ b, mix 0 b = add32 (b ^^^ rotl b 13) (rotl b 19)) ∧
  (∀ a, mix a 0 = add32 (rotl a 11 ^^^ a ^^^ rotl a 13) (rotl a 19)) ∧
  mix 0x73711a77 0xd6031b6f = 0x7647d9bd ∧ mix 0xd6031b6f 0x73711a77 = 0x064f9696 ∧
  (∀ a b, mix a b = add32 (rotl a 11 ^^^ (b ^^^ a) ^^^ rotl (b ^^^ a) 13) (rotl (b ^^^ a) 19) ∧
    mix b a = add32 (rotl b 11 ^^^ (b ^^^ a) ^^^ rotl (b ^^^ a) 13) (rotl (b ^^^ a) 19))

/-- 00_scope.md R13: `rotl` is a rotation: bit `i` of the operand becomes bit `(i + r) mod 32` of the result. -/
def Obligations.RotlMovesEveryBit : Prop :=
  ∀ (x : Word) (r i : Nat), 0 < r → r < 32 → i < 32 →
    (rotl x r).getLsbD ((i + r) % 32) = x.getLsbD i

/-- 45_finalizer.md R219, R218: the hex string of a digest has 8 digits a word and parses back to its words. -/
def Obligations.HexDigestRoundTrips : Prop :=
  ∀ d : List Word, (hexDigest d).length = 8 * d.length ∧ parseHex (hexDigest d) = some d

/-- 30_encoding.md R98: the pseudo-instructions, each run from an idle block. `mix a, b -> r` reads `mix(a, b)`
and `mix a -> r` reads `mix1(a)`. `hash` ends for every input without a device, its `wait` included: with the digest
of its bytes, seed and width, `width/32` words, where the configuration is valid and the buffer backed; with no
digest where the configuration is rejected (ERR_CFG) and where a byte is not backed (ERR_BUS). The fields `rdata` and
`returned` are where the model leaves `r`, `s` and `d` (notes/assumptions/11.md). -/
def Obligations.PseudoInstructionsReadTheirResults : Prop :=
  ∀ s : State, s.busy = false → s.fatal = false →
    (∀ a b : Word, s.script = mixScript a b →
      Sys2Proof.core.run 4 s = .next { s with
        script := [], opa := a, opb := b, res := mix a b, result := 1, rdata := some (mix a b) }) ∧
    (∀ a : Word, s.script = mixcScript a →
      Sys2Proof.core.run 3 s = .next { s with
        script := [], opa := a, res := mix a Config.mixConst, result := 1
        rdata := some (mix a Config.mixConst) }) ∧
    (∀ (buf len : Addr) (seed width tier : Word), s.script = hashScript buf len seed width tier →
      ((s.configured buf len seed width tier).hashValid = false →
        ∃ t, Sys2Proof.core.run 10 s = .next t ∧
          t = { s.configured buf len seed width tier with
            script := [], result := 2, rdata := some t.statusWord, returned := none }) ∧
      ((s.configured buf len seed width tier).hashValid = true →
        (s.configured buf len seed width tier).deviceInBuffer = false →
        ∃ k t, Sys2Proof.core.run k s = .next t ∧ t.script = [] ∧ t.busy = false ∧
          t.rdata = some t.statusWord ∧
          (backedRun s.mem buf.toNat len.toNat = true → t.result = 1 ∧
            t.returned = some ((List.range (width.toNat / 32)).map fun k =>
              entry (digestAt (bytesAt s.mem buf.toNat len.toNat) seed width.toNat) k)) ∧
          (backedRun s.mem buf.toNat len.toNat = false → t.result = 4 ∧ t.returned = none)))
end

