-- ==== Sys2Proof/Laws/Tables.lean ====
section
/-!
SUPPORT. Tables: entries of vectors, lanes and lane files after an update; two tables with equal entries are
equal.
-/

namespace Sys2Proof.Machine

variable {w n : Nat}

theorem entry_of_lt (v : Vector (BitVec w) n) {i : Nat} (h : i < n) : entry v i = v[i] := by
  obtain ⟨⟨l⟩, hl⟩ := v
  simp at hl
  subst hl
  simp [entry, h]

theorem entry_of_le (v : Vector (BitVec w) n) {i : Nat} (h : n ≤ i) : entry v i = 0 := by
  obtain ⟨⟨l⟩, hl⟩ := v
  simp at hl
  subst hl
  simp [entry, h]

/-- Two vectors with equal entries are equal. -/
theorem entry_ext {u v : Vector (BitVec w) n} (h : ∀ i, i < n → entry u i = entry v i) : u = v := by
  ext i hi : 1
  have := h i hi
  rwa [entry_of_lt u hi, entry_of_lt v hi] at this

@[simp] theorem entry_tabulate (f : Nat → BitVec w) (i : Nat) :
    entry (tabulate n f) i = if i < n then f i else 0 := by
  by_cases h : i < n <;> simp [entry, tabulate, h]

theorem entry_replicate (b : BitVec w) (i : Nat) :
    entry (Vector.replicate n b) i = if i < n then b else 0 := by
  by_cases h : i < n
  · rw [entry_of_lt _ h]
    simp [h]
  · rw [entry_of_le _ (by omega)]
    simp [h]

/-- Words below `k` come from `f`, the others are unchanged (10_state.md R22). -/
@[simp] theorem entry_laneWith (k : Nat) (f : Nat → Word) (x : Lane) (i : Nat) :
    entry (laneWith k f x) i = if i < k ∧ i < 64 then f i else entry x i := by
  by_cases h64 : i < 64
  · by_cases hk : i < k <;> simp [laneWith, h64, hk]
  · rw [entry_of_le _ (by omega)]
    simp [h64, entry_of_le x (Nat.le_of_not_lt h64)]

@[simp] theorem lane_one (h : Lanes) : h.lane 1 = h.h1 := rfl
@[simp] theorem lane_two (h : Lanes) : h.lane 2 = h.h2 := rfl
@[simp] theorem lane_three (h : Lanes) : h.lane 3 = h.h3 := rfl
@[simp] theorem lane_four (h : Lanes) : h.lane 4 = h.h4 := rfl

/-- A word of the lane file after an update of the first `k` words of every lane. -/
theorem word_lanesWith (k : Nat) (f : Nat → Nat → Word) (h : Lanes) {l : Nat} (hl : 1 ≤ l ∧ l ≤ 4) (i : Nat) :
    (lanesWith k f h).word l i = if i < k ∧ i < 64 then f l i else h.word l i := by
  have : l = 1 ∨ l = 2 ∨ l = 3 ∨ l = 4 := by omega
  rcases this with rfl | rfl | rfl | rfl <;> simp [Lanes.word, lanesWith]

/-- Two lane files with equal words are equal. -/
theorem lanes_ext {g h : Lanes} (e : ∀ l i, 1 ≤ l → l ≤ 4 → i < 64 → g.word l i = h.word l i) : g = h := by
  obtain ⟨g1, g2, g3, g4⟩ := g
  obtain ⟨h1, h2, h3, h4⟩ := h
  have e1 : g1 = h1 := entry_ext fun i hi => by simpa [Lanes.word] using e 1 i (by omega) (by omega) hi
  have e2 : g2 = h2 := entry_ext fun i hi => by simpa [Lanes.word] using e 2 i (by omega) (by omega) hi
  have e3 : g3 = h3 := entry_ext fun i hi => by simpa [Lanes.word] using e 3 i (by omega) (by omega) hi
  have e4 : g4 = h4 := entry_ext fun i hi => by simpa [Lanes.word] using e 4 i (by omega) (by omega) hi
  rw [e1, e2, e3, e4]

/-! ### The sizes that a legal width fixes (00_scope.md R9) -/

/-- The six legal widths, one by one. -/
theorem legalWidth_iff (x : Word) : legalWidth x = true ↔
    x = 32 ∨ x = 64 ∨ x = 128 ∨ x = 256 ∨ x = 512 ∨ x = 1024 := by
  simp [legalWidth, or_assoc]

/-- The table of 00_scope.md R9. -/
theorem sizes_of_legalWidth {x : Word} (h : legalWidth x = true) :
    (laneWords x.toNat = 16 ∨ laneWords x.toNat = 32 ∨ laneWords x.toNat = 64) ∧
    blockBytes x.toNat = 16 * laneWords x.toNat ∧ laneWords x.toNat ≤ 64 ∧
    4 ≤ foldWords x.toNat ∧ foldWords x.toNat ≤ 32 ∧
    foldWords x.toNat * chunkWords x.toNat = 4 * laneWords x.toNat ∧
    1 ≤ digestWords x.toNat ∧ digestWords x.toNat ≤ foldWords x.toNat := by
  rcases (legalWidth_iff x).1 h with rfl | rfl | rfl | rfl | rfl | rfl <;> decide

end Sys2Proof.Machine
end

