-- ==== Sys2Proof/Laws/Functions.lean ====
section
/-!
SUPPORT. One lemma for each function that the phase steps share: what the tier selector, the padding, the block
words, the port accesses and the loop of HALVE give.
-/

namespace Sys2Proof.Machine

/-! ### The Tier Selector -/

/-- `largestTier ok n` is the largest `t ≤ n` with `ok t`, if `ok 0`. -/
theorem largestTier_spec (ok : Nat → Bool) (h0 : ok 0 = true) (n : Nat) :
    largestTier ok n ≤ n ∧ ok (largestTier ok n) = true ∧
    ∀ t, t ≤ n → ok t = true → t ≤ largestTier ok n := by
  induction n with
  | zero => exact ⟨Nat.le_refl 0, h0, fun t ht _ => ht⟩
  | succ n ih =>
    unfold largestTier
    cases hk : ok (n + 1) with
    | true => exact ⟨by simp, by simpa using hk, fun t ht _ => by simpa using ht⟩
    | false =>
      refine ⟨by simpa using Nat.le_succ_of_le ih.1, by simpa using ih.2.1, fun t ht h => ?_⟩
      have : t ≠ n + 1 := fun e => by rw [e, hk] at h; cases h
      simpa using ih.2.2 t (by omega) h

/-- The upper bound is a tier number (R232). -/
theorem tierUpperBound_le (c : Capabilities) {req : Nat} (h : req ≤ 4) : tierUpperBound c req ≤ 3 := by
  unfold tierUpperBound
  split
  · exact (largestTier_spec c.capable rfl 3).1
  · omega

/-- `selectTier` answers a tier number that is capable and aligned (R232). -/
theorem selectTier_spec (c : Capabilities) {req : Nat} (addr : Addr) (h : req ≤ 4) :
    selectTier c req addr ≤ 3 ∧ c.capable (selectTier c req addr) = true ∧
    tierAligned (selectTier c req addr) addr = true := by
  have s := largestTier_spec (fun t => c.capable t && tierAligned t addr) rfl (tierUpperBound c req)
  have a := s.2.1
  simp only [Bool.and_eq_true] at a
  exact ⟨Nat.le_trans s.1 (tierUpperBound_le c h), a.1, a.2⟩

/-! ### The contract of a phase step -/

/-- What the contract of a phase step gives (R250). -/
theorem contractHolds_iff (s : State) :
    s.contractHolds = true ↔ legalWidth s.lwidth = true ∧ s.ltier.toNat ≤ 4 := by
  simp [State.contractHolds, legalWidth, legalTierRequest]

/-- The block size of a command in progress (00_scope.md R9). -/
theorem bs_of_contract {s : State} (h : s.contractHolds = true) : s.bs = 256 ∨ s.bs = 512 ∨ s.bs = 1024 := by
  rcases (legalWidth_iff _).1 ((contractHolds_iff s).1 h).1 with e | e | e | e | e | e <;>
    simp [State.bs, e, blockBytes, laneWords]

/-! ### Blocks -/

theorem padBlock_length (bs : Nat) (tail : List Byte) : (padBlock bs tail).length = bs := by simp [padBlock]

/-- A byte of the padded block (R178, R179). -/
theorem padBlock_getD (bs : Nat) (tail : List Byte) {j : Nat} (h : j < bs) :
    (padBlock bs tail).getD j 0 = if j < tail.length then tail.getD j 0 else padByte tail.length j := by
  simp [padBlock, List.getD, h]

theorem padByte_toNat (r j : Nat) : (padByte r j).toNat = (j - r + 1) % 256 := by simp [padByte]

/-- Four bytes give one word (20_memory.md R64). -/
theorem wordsOf_length : ∀ bytes : List Byte, (wordsOf bytes).length = bytes.length / 4
  | [] | [_] | [_, _] | [_, _, _] => by simp [wordsOf]
  | _ :: _ :: _ :: _ :: rest => by
    have := wordsOf_length rest
    simp only [wordsOf, List.length_cons, this]
    omega

/-- The accesses that read a run (20_memory.md R69). -/
theorem mem_portReads {addr size n : Nat} {r : PortRead} :
    r ∈ portReads addr size n ↔ ∃ q, q < n / size ∧ r = { address := addr + q * size, size := size } := by
  simp only [portReads, List.mem_map, List.mem_range]
  exact ⟨fun ⟨q, h, e⟩ => ⟨q, h, e.symm⟩, fun ⟨q, h, e⟩ => ⟨q, h, e.symm⟩⟩

/-- The accesses below an address are among the accesses. -/
theorem mem_of_mem_completeBelow {a : Nat} {rs : List PortRead} {r : PortRead} (h : r ∈ completeBelow a rs) :
    r ∈ rs := (List.mem_filter.1 h).1

/-! ### The loop of HALVE -/

/-- From the L words of the fold HALVE leaves `width / 32` words (R212). -/
theorem halveLoop_count {x : Word} (h : legalWidth x = true) (p : Vector Word 32) :
    (halveLoop (digestWords x.toNat) (foldWords x.toNat) (foldWords x.toNat) p).1 = digestWords x.toNat := by
  rcases (legalWidth_iff _).1 h with e | e | e | e | e | e <;> rw [e] <;> rfl

end Sys2Proof.Machine
end

