-- ==== Sys2Proof/Laws/Memory.lean ====
section
/-!
SUPPORT. The buffer memory: read after write, the canonical form, the host's stores, and the engine's reads.
-/

namespace Sys2Proof.Machine

/-! ### Read after write -/

@[simp] theorem read_nil (a : Nat) : Memory.read [] a = none := rfl

theorem read_cons (k : Nat) (b : Byte) (m : Memory) (a : Nat) :
    Memory.read ((k, b) :: m) a = if a = k then some b else Memory.read m a := rfl

/-- A write leaves every other address alone. -/
theorem read_write_of_ne (m : Memory) {a a' : Nat} (v : Byte) (h : a' ≠ a) :
    (m.write a v).read a' = m.read a' := by
  induction m with
  | nil => rfl
  | cons c m ih =>
    obtain ⟨k, b⟩ := c
    by_cases hk : a = k
    · subst hk
      simp [Memory.write, Memory.read, h]
    · by_cases hk' : a' = k <;> simp [Memory.write, Memory.read, hk, hk', ih]

/-- A write to a backed address is read back; a write to another address changes nothing. -/
theorem read_write_same (m : Memory) (a : Nat) (v : Byte) :
    (m.write a v).read a = (m.read a).map fun _ => v := by
  induction m with
  | nil => rfl
  | cons c m ih =>
    obtain ⟨k, b⟩ := c
    by_cases hk : a = k <;> simp [Memory.write, Memory.read, hk, ih]

/-- The platform's memory map does not change. -/
@[simp] theorem backed_write (m : Memory) (a a' : Nat) (v : Byte) :
    (m.write a v).backed a' = m.backed a' := by
  by_cases h : a' = a
  · subst h
    simp [Memory.backed, read_write_same]
  · simp [Memory.backed, read_write_of_ne m v h]

/-! ### The canonical form -/

/-- A write keeps the addresses that are listed. -/
theorem write_addresses (m : Memory) (a : Nat) (v : Byte) :
    (m.write a v).map (·.1) = m.map (·.1) := by
  induction m with
  | nil => rfl
  | cons c m ih =>
    obtain ⟨k, b⟩ := c
    by_cases hk : a = k <;> simp [Memory.write, hk, ih]

/-- The canonical form depends on the listed addresses only. -/
theorem wf_iff_addresses (m : Memory) :
    m.wf ↔ (m.map (·.1)).Pairwise (· < ·) ∧ ∀ a ∈ m.map (·.1), a < 2 ^ 64 := by
  simp [Memory.wf, List.pairwise_map]

/-- The one memory operation keeps the canonical form. -/
theorem wf_write (m : Memory) (a : Nat) (v : Byte) (h : m.wf) : Memory.wf (m.write a v) := by
  rw [wf_iff_addresses] at h ⊢
  rwa [write_addresses]

theorem wf_nil : Memory.wf [] := by simp [Memory.wf]

theorem reset_memory_wf : State.reset.mem.wf := wf_nil

/-- A listed address lies inside the 64-bit space. -/
theorem lt_of_backed {m : Memory} (h : m.wf) {a : Nat} (ha : m.backed a = true) : a < 2 ^ 64 := by
  have hmem : ∀ m : Memory, m.backed a = true → ∃ b, (a, b) ∈ m := by
    intro m
    induction m with
    | nil => simp [Memory.backed]
    | cons c m ih =>
      obtain ⟨k, b⟩ := c
      intro hb
      by_cases hk : a = k
      · exact ⟨b, by simp [hk]⟩
      · obtain ⟨b', hb'⟩ := ih (by simpa [Memory.backed, Memory.read, hk] using hb)
        exact ⟨b', List.mem_cons_of_mem _ hb'⟩
  obtain ⟨b, hb⟩ := hmem m ha
  exact h.2 _ hb

/-! ### The host's stores -/

/-- All that a store of the host can do. -/
theorem storeByte_cases (s : State) (a : Nat) (v : Byte) :
    (s.mem.read a = none ∧ s.storeByte a v = s) ∨
    (∃ old, s.mem.read a = some old ∧
      s.storeByte a v =
        { s with mem := s.mem.write a v, raced := if s.busy then (a, old) :: s.raced else s.raced }) := by
  unfold State.storeByte
  cases h : s.mem.read a with
  | none => exact .inl ⟨rfl, rfl⟩
  | some old => exact .inr ⟨old, rfl, rfl⟩

/-- A store touches the memory and the race record only. -/
theorem storeByte_frame (s : State) (a : Nat) (v : Byte) :
    s.storeByte a v = { s with mem := (s.storeByte a v).mem, raced := (s.storeByte a v).raced } := by
  rcases storeByte_cases s a v with ⟨_, h⟩ | ⟨old, _, h⟩ <;> rw [h]

/-- A store keeps the canonical form. -/
theorem storeByte_wf (s : State) (a : Nat) (v : Byte) (h : s.mem.wf) : (s.storeByte a v).mem.wf := by
  rcases storeByte_cases s a v with ⟨_, he⟩ | ⟨old, _, he⟩ <;> rw [he]
  · exact h
  · exact wf_write s.mem a v h

/-! ### The engine's reads -/

/-- A byte that the host did not overwrite during the HASH reads as the memory holds it. -/
theorem bufferByte_of_not_raced (s : State) (a : Nat) (h : oldValues s.raced a = []) :
    s.bufferByte a = s.mem.read a := by
  cases hm : s.mem.read a <;> simp [State.bufferByte, racedValue, h, hm]

@[simp] theorem bufferByte_isSome (s : State) (a : Nat) : (s.bufferByte a).isSome = s.mem.backed a := by
  simp [State.bufferByte, Memory.backed]

/-- What a raced read returns is one of the values the byte held. -/
theorem racedValue_mem (now : Byte) (olds : List Byte) (pick : Nat) :
    racedValue now olds pick = now ∨ racedValue now olds pick ∈ olds := by
  cases olds with
  | nil => exact .inl rfl
  | cons o os =>
    have hlt : pick % (os.length + 2) < (now :: o :: os).length := by
      exact Nat.mod_lt pick (by omega : 0 < os.length + 2)
    have hmem : racedValue now (o :: os) pick ∈ now :: o :: os := by
      simp only [racedValue, List.getD_eq_getElem?_getD, List.getElem?_eq_getElem hlt, Option.getD_some]
      exact List.getElem_mem hlt
    simpa using hmem

/-- A read of a run either gives all its bytes or stops at the lowest address that is not backed, with the
bytes below it (20_memory.md R62). -/
theorem readBuffer_spec (s : State) (a n : Nat) :
    (∃ bytes, s.readBuffer a n = .data bytes ∧ bytes.length = n ∧
      ∀ j, j < n → s.bufferByte (a + j) = some (bytes.getD j 0)) ∨
    (∃ k before, k < n ∧ s.readBuffer a n = .busError (a + k) before ∧ before.length = k ∧
      s.bufferByte (a + k) = none ∧ ∀ j, j < k → s.bufferByte (a + j) = some (before.getD j 0)) := by
  induction n generalizing a with
  | zero => exact .inl ⟨[], rfl, rfl, fun j hj => by omega⟩
  | succ n ih =>
    cases hb : s.bufferByte a with
    | none => exact .inr ⟨0, [], by omega, by simp [State.readBuffer, hb], rfl, by simpa using hb, fun j hj => by omega⟩
    | some b =>
      rcases ih (a + 1) with ⟨bytes, hr, hl, hv⟩ | ⟨k, before, hk, hr, hl, hn, hv⟩
      · refine .inl ⟨b :: bytes, by simp [State.readBuffer, hb, hr], by simp [hl], ?_⟩
        intro j hj
        cases j with
        | zero => simpa using hb
        | succ j =>
          have := hv j (by omega)
          rw [show a + 1 + j = a + (j + 1) by omega] at this
          simpa using this
      · refine .inr ⟨k + 1, b :: before, by omega, ?_, by simp [hl], ?_, ?_⟩
        · simp [State.readBuffer, hb, hr, show a + 1 + k = a + (k + 1) by omega]
        · rw [show a + (k + 1) = a + 1 + k by omega]
          exact hn
        · intro j hj
          cases j with
          | zero => simpa using hb
          | succ j =>
            have := hv j (by omega)
            rw [show a + 1 + j = a + (j + 1) by omega] at this
            simpa using this

end Sys2Proof.Machine
end

