-- ==== Sys2Proof/Laws/State.lean ====
section
/-!
SUPPORT. One lemma per field for each named update of `State`, true by rfl, so that no later proof unfolds a
record update: the exceptions of 60_exceptions.md, the acceptance of HASH, and reset.
-/

namespace Sys2Proof.Machine

variable (s : State)

/-! ### `State.raiseIllegalCommand` -/

@[simp] theorem raiseIllegalCommand_seed : s.raiseIllegalCommand.seed = s.seed := rfl
@[simp] theorem raiseIllegalCommand_width : s.raiseIllegalCommand.width = s.width := rfl
@[simp] theorem raiseIllegalCommand_tierreq : s.raiseIllegalCommand.tierreq = s.tierreq := rfl
@[simp] theorem raiseIllegalCommand_buflo : s.raiseIllegalCommand.buflo = s.buflo := rfl
@[simp] theorem raiseIllegalCommand_bufhi : s.raiseIllegalCommand.bufhi = s.bufhi := rfl
@[simp] theorem raiseIllegalCommand_lenlo : s.raiseIllegalCommand.lenlo = s.lenlo := rfl
@[simp] theorem raiseIllegalCommand_lenhi : s.raiseIllegalCommand.lenhi = s.lenhi := rfl
@[simp] theorem raiseIllegalCommand_opa : s.raiseIllegalCommand.opa = s.opa := rfl
@[simp] theorem raiseIllegalCommand_opb : s.raiseIllegalCommand.opb = s.opb := rfl
@[simp] theorem raiseIllegalCommand_res : s.raiseIllegalCommand.res = s.res := rfl
@[simp] theorem raiseIllegalCommand_digest : s.raiseIllegalCommand.digest = s.digest := rfl
@[simp] theorem raiseIllegalCommand_busy : s.raiseIllegalCommand.busy = s.busy := rfl
@[simp] theorem raiseIllegalCommand_dvalid : s.raiseIllegalCommand.dvalid = s.dvalid := rfl
@[simp] theorem raiseIllegalCommand_perr : s.raiseIllegalCommand.perr = s.perr := rfl
@[simp] theorem raiseIllegalCommand_fatal : s.raiseIllegalCommand.fatal = s.fatal := rfl
@[simp] theorem raiseIllegalCommand_result : s.raiseIllegalCommand.result = resErrCmd := rfl
@[simp] theorem raiseIllegalCommand_tier : s.raiseIllegalCommand.tier = s.tier := rfl
@[simp] theorem raiseIllegalCommand_phase : s.raiseIllegalCommand.phase = s.phase := rfl
@[simp] theorem raiseIllegalCommand_cursor : s.raiseIllegalCommand.cursor = s.cursor := rfl
@[simp] theorem raiseIllegalCommand_remain : s.raiseIllegalCommand.remain = s.remain := rfl
@[simp] theorem raiseIllegalCommand_h : s.raiseIllegalCommand.h = s.h := rfl
@[simp] theorem raiseIllegalCommand_lseed : s.raiseIllegalCommand.lseed = s.lseed := rfl
@[simp] theorem raiseIllegalCommand_lwidth : s.raiseIllegalCommand.lwidth = s.lwidth := rfl
@[simp] theorem raiseIllegalCommand_ltier : s.raiseIllegalCommand.ltier = s.ltier := rfl
@[simp] theorem raiseIllegalCommand_lbuf : s.raiseIllegalCommand.lbuf = s.lbuf := rfl
@[simp] theorem raiseIllegalCommand_llen : s.raiseIllegalCommand.llen = s.llen := rfl
@[simp] theorem raiseIllegalCommand_seedw : s.raiseIllegalCommand.seedw = s.seedw := rfl
@[simp] theorem raiseIllegalCommand_blk : s.raiseIllegalCommand.blk = s.blk := rfl
@[simp] theorem raiseIllegalCommand_p : s.raiseIllegalCommand.p = s.p := rfl
@[simp] theorem raiseIllegalCommand_count : s.raiseIllegalCommand.count = s.count := rfl
@[simp] theorem raiseIllegalCommand_mem : s.raiseIllegalCommand.mem = s.mem := rfl
@[simp] theorem raiseIllegalCommand_devices : s.raiseIllegalCommand.devices = s.devices := rfl
@[simp] theorem raiseIllegalCommand_script : s.raiseIllegalCommand.script = s.script := rfl
@[simp] theorem raiseIllegalCommand_rdata : s.raiseIllegalCommand.rdata = s.rdata := rfl
@[simp] theorem raiseIllegalCommand_returned : s.raiseIllegalCommand.returned = s.returned := rfl
@[simp] theorem raiseIllegalCommand_raced : s.raiseIllegalCommand.raced = s.raced := rfl
@[simp] theorem raiseIllegalCommand_draws : s.raiseIllegalCommand.draws = s.draws := rfl
@[simp] theorem raiseIllegalCommand_reads : s.raiseIllegalCommand.reads = s.reads := rfl

/-! ### `State.raiseConfigError` -/

@[simp] theorem raiseConfigError_seed : s.raiseConfigError.seed = s.seed := rfl
@[simp] theorem raiseConfigError_width : s.raiseConfigError.width = s.width := rfl
@[simp] theorem raiseConfigError_tierreq : s.raiseConfigError.tierreq = s.tierreq := rfl
@[simp] theorem raiseConfigError_buflo : s.raiseConfigError.buflo = s.buflo := rfl
@[simp] theorem raiseConfigError_bufhi : s.raiseConfigError.bufhi = s.bufhi := rfl
@[simp] theorem raiseConfigError_lenlo : s.raiseConfigError.lenlo = s.lenlo := rfl
@[simp] theorem raiseConfigError_lenhi : s.raiseConfigError.lenhi = s.lenhi := rfl
@[simp] theorem raiseConfigError_opa : s.raiseConfigError.opa = s.opa := rfl
@[simp] theorem raiseConfigError_opb : s.raiseConfigError.opb = s.opb := rfl
@[simp] theorem raiseConfigError_res : s.raiseConfigError.res = s.res := rfl
@[simp] theorem raiseConfigError_digest : s.raiseConfigError.digest = s.digest := rfl
@[simp] theorem raiseConfigError_busy : s.raiseConfigError.busy = s.busy := rfl
@[simp] theorem raiseConfigError_dvalid : s.raiseConfigError.dvalid = s.dvalid := rfl
@[simp] theorem raiseConfigError_perr : s.raiseConfigError.perr = s.perr := rfl
@[simp] theorem raiseConfigError_fatal : s.raiseConfigError.fatal = s.fatal := rfl
@[simp] theorem raiseConfigError_result : s.raiseConfigError.result = resErrCfg := rfl
@[simp] theorem raiseConfigError_tier : s.raiseConfigError.tier = s.tier := rfl
@[simp] theorem raiseConfigError_phase : s.raiseConfigError.phase = s.phase := rfl
@[simp] theorem raiseConfigError_cursor : s.raiseConfigError.cursor = s.cursor := rfl
@[simp] theorem raiseConfigError_remain : s.raiseConfigError.remain = s.remain := rfl
@[simp] theorem raiseConfigError_h : s.raiseConfigError.h = s.h := rfl
@[simp] theorem raiseConfigError_lseed : s.raiseConfigError.lseed = s.lseed := rfl
@[simp] theorem raiseConfigError_lwidth : s.raiseConfigError.lwidth = s.lwidth := rfl
@[simp] theorem raiseConfigError_ltier : s.raiseConfigError.ltier = s.ltier := rfl
@[simp] theorem raiseConfigError_lbuf : s.raiseConfigError.lbuf = s.lbuf := rfl
@[simp] theorem raiseConfigError_llen : s.raiseConfigError.llen = s.llen := rfl
@[simp] theorem raiseConfigError_seedw : s.raiseConfigError.seedw = s.seedw := rfl
@[simp] theorem raiseConfigError_blk : s.raiseConfigError.blk = s.blk := rfl
@[simp] theorem raiseConfigError_p : s.raiseConfigError.p = s.p := rfl
@[simp] theorem raiseConfigError_count : s.raiseConfigError.count = s.count := rfl
@[simp] theorem raiseConfigError_mem : s.raiseConfigError.mem = s.mem := rfl
@[simp] theorem raiseConfigError_devices : s.raiseConfigError.devices = s.devices := rfl
@[simp] theorem raiseConfigError_script : s.raiseConfigError.script = s.script := rfl
@[simp] theorem raiseConfigError_rdata : s.raiseConfigError.rdata = s.rdata := rfl
@[simp] theorem raiseConfigError_returned : s.raiseConfigError.returned = s.returned := rfl
@[simp] theorem raiseConfigError_raced : s.raiseConfigError.raced = s.raced := rfl
@[simp] theorem raiseConfigError_draws : s.raiseConfigError.draws = s.draws := rfl
@[simp] theorem raiseConfigError_reads : s.raiseConfigError.reads = s.reads := rfl

/-! ### `State.raiseProtocolError` -/

@[simp] theorem raiseProtocolError_seed : s.raiseProtocolError.seed = s.seed := rfl
@[simp] theorem raiseProtocolError_width : s.raiseProtocolError.width = s.width := rfl
@[simp] theorem raiseProtocolError_tierreq : s.raiseProtocolError.tierreq = s.tierreq := rfl
@[simp] theorem raiseProtocolError_buflo : s.raiseProtocolError.buflo = s.buflo := rfl
@[simp] theorem raiseProtocolError_bufhi : s.raiseProtocolError.bufhi = s.bufhi := rfl
@[simp] theorem raiseProtocolError_lenlo : s.raiseProtocolError.lenlo = s.lenlo := rfl
@[simp] theorem raiseProtocolError_lenhi : s.raiseProtocolError.lenhi = s.lenhi := rfl
@[simp] theorem raiseProtocolError_opa : s.raiseProtocolError.opa = s.opa := rfl
@[simp] theorem raiseProtocolError_opb : s.raiseProtocolError.opb = s.opb := rfl
@[simp] theorem raiseProtocolError_res : s.raiseProtocolError.res = s.res := rfl
@[simp] theorem raiseProtocolError_digest : s.raiseProtocolError.digest = s.digest := rfl
@[simp] theorem raiseProtocolError_busy : s.raiseProtocolError.busy = s.busy := rfl
@[simp] theorem raiseProtocolError_dvalid : s.raiseProtocolError.dvalid = s.dvalid := rfl
@[simp] theorem raiseProtocolError_perr : s.raiseProtocolError.perr = true := rfl
@[simp] theorem raiseProtocolError_fatal : s.raiseProtocolError.fatal = s.fatal := rfl
@[simp] theorem raiseProtocolError_result : s.raiseProtocolError.result = s.result := rfl
@[simp] theorem raiseProtocolError_tier : s.raiseProtocolError.tier = s.tier := rfl
@[simp] theorem raiseProtocolError_phase : s.raiseProtocolError.phase = s.phase := rfl
@[simp] theorem raiseProtocolError_cursor : s.raiseProtocolError.cursor = s.cursor := rfl
@[simp] theorem raiseProtocolError_remain : s.raiseProtocolError.remain = s.remain := rfl
@[simp] theorem raiseProtocolError_h : s.raiseProtocolError.h = s.h := rfl
@[simp] theorem raiseProtocolError_lseed : s.raiseProtocolError.lseed = s.lseed := rfl
@[simp] theorem raiseProtocolError_lwidth : s.raiseProtocolError.lwidth = s.lwidth := rfl
@[simp] theorem raiseProtocolError_ltier : s.raiseProtocolError.ltier = s.ltier := rfl
@[simp] theorem raiseProtocolError_lbuf : s.raiseProtocolError.lbuf = s.lbuf := rfl
@[simp] theorem raiseProtocolError_llen : s.raiseProtocolError.llen = s.llen := rfl
@[simp] theorem raiseProtocolError_seedw : s.raiseProtocolError.seedw = s.seedw := rfl
@[simp] theorem raiseProtocolError_blk : s.raiseProtocolError.blk = s.blk := rfl
@[simp] theorem raiseProtocolError_p : s.raiseProtocolError.p = s.p := rfl
@[simp] theorem raiseProtocolError_count : s.raiseProtocolError.count = s.count := rfl
@[simp] theorem raiseProtocolError_mem : s.raiseProtocolError.mem = s.mem := rfl
@[simp] theorem raiseProtocolError_devices : s.raiseProtocolError.devices = s.devices := rfl
@[simp] theorem raiseProtocolError_script : s.raiseProtocolError.script = s.script := rfl
@[simp] theorem raiseProtocolError_rdata : s.raiseProtocolError.rdata = s.rdata := rfl
@[simp] theorem raiseProtocolError_returned : s.raiseProtocolError.returned = s.returned := rfl
@[simp] theorem raiseProtocolError_raced : s.raiseProtocolError.raced = s.raced := rfl
@[simp] theorem raiseProtocolError_draws : s.raiseProtocolError.draws = s.draws := rfl
@[simp] theorem raiseProtocolError_reads : s.raiseProtocolError.reads = s.reads := rfl

/-! ### `State.raiseBusError` -/

@[simp] theorem raiseBusError_seed : s.raiseBusError.seed = s.seed := rfl
@[simp] theorem raiseBusError_width : s.raiseBusError.width = s.width := rfl
@[simp] theorem raiseBusError_tierreq : s.raiseBusError.tierreq = s.tierreq := rfl
@[simp] theorem raiseBusError_buflo : s.raiseBusError.buflo = s.buflo := rfl
@[simp] theorem raiseBusError_bufhi : s.raiseBusError.bufhi = s.bufhi := rfl
@[simp] theorem raiseBusError_lenlo : s.raiseBusError.lenlo = s.lenlo := rfl
@[simp] theorem raiseBusError_lenhi : s.raiseBusError.lenhi = s.lenhi := rfl
@[simp] theorem raiseBusError_opa : s.raiseBusError.opa = s.opa := rfl
@[simp] theorem raiseBusError_opb : s.raiseBusError.opb = s.opb := rfl
@[simp] theorem raiseBusError_res : s.raiseBusError.res = s.res := rfl
@[simp] theorem raiseBusError_digest : s.raiseBusError.digest = s.digest := rfl
@[simp] theorem raiseBusError_busy : s.raiseBusError.busy = false := rfl
@[simp] theorem raiseBusError_dvalid : s.raiseBusError.dvalid = s.dvalid := rfl
@[simp] theorem raiseBusError_perr : s.raiseBusError.perr = s.perr := rfl
@[simp] theorem raiseBusError_fatal : s.raiseBusError.fatal = s.fatal := rfl
@[simp] theorem raiseBusError_result : s.raiseBusError.result = resErrBus := rfl
@[simp] theorem raiseBusError_tier : s.raiseBusError.tier = s.tier := rfl
@[simp] theorem raiseBusError_phase : s.raiseBusError.phase = phIdle := rfl
@[simp] theorem raiseBusError_cursor : s.raiseBusError.cursor = s.cursor := rfl
@[simp] theorem raiseBusError_remain : s.raiseBusError.remain = s.remain := rfl
@[simp] theorem raiseBusError_h : s.raiseBusError.h = s.h := rfl
@[simp] theorem raiseBusError_lseed : s.raiseBusError.lseed = s.lseed := rfl
@[simp] theorem raiseBusError_lwidth : s.raiseBusError.lwidth = s.lwidth := rfl
@[simp] theorem raiseBusError_ltier : s.raiseBusError.ltier = s.ltier := rfl
@[simp] theorem raiseBusError_lbuf : s.raiseBusError.lbuf = s.lbuf := rfl
@[simp] theorem raiseBusError_llen : s.raiseBusError.llen = s.llen := rfl
@[simp] theorem raiseBusError_seedw : s.raiseBusError.seedw = s.seedw := rfl
@[simp] theorem raiseBusError_blk : s.raiseBusError.blk = s.blk := rfl
@[simp] theorem raiseBusError_p : s.raiseBusError.p = s.p := rfl
@[simp] theorem raiseBusError_count : s.raiseBusError.count = s.count := rfl
@[simp] theorem raiseBusError_mem : s.raiseBusError.mem = s.mem := rfl
@[simp] theorem raiseBusError_devices : s.raiseBusError.devices = s.devices := rfl
@[simp] theorem raiseBusError_script : s.raiseBusError.script = s.script := rfl
@[simp] theorem raiseBusError_rdata : s.raiseBusError.rdata = s.rdata := rfl
@[simp] theorem raiseBusError_returned : s.raiseBusError.returned = s.returned := rfl
@[simp] theorem raiseBusError_raced : s.raiseBusError.raced = s.raced := rfl
@[simp] theorem raiseBusError_draws : s.raiseBusError.draws = s.draws := rfl
@[simp] theorem raiseBusError_reads : s.raiseBusError.reads = s.reads := rfl

/-! ### `State.raiseFatal` -/

@[simp] theorem raiseFatal_seed : s.raiseFatal.seed = s.seed := rfl
@[simp] theorem raiseFatal_width : s.raiseFatal.width = s.width := rfl
@[simp] theorem raiseFatal_tierreq : s.raiseFatal.tierreq = s.tierreq := rfl
@[simp] theorem raiseFatal_buflo : s.raiseFatal.buflo = s.buflo := rfl
@[simp] theorem raiseFatal_bufhi : s.raiseFatal.bufhi = s.bufhi := rfl
@[simp] theorem raiseFatal_lenlo : s.raiseFatal.lenlo = s.lenlo := rfl
@[simp] theorem raiseFatal_lenhi : s.raiseFatal.lenhi = s.lenhi := rfl
@[simp] theorem raiseFatal_opa : s.raiseFatal.opa = s.opa := rfl
@[simp] theorem raiseFatal_opb : s.raiseFatal.opb = s.opb := rfl
@[simp] theorem raiseFatal_res : s.raiseFatal.res = s.res := rfl
@[simp] theorem raiseFatal_digest : s.raiseFatal.digest = s.digest := rfl
@[simp] theorem raiseFatal_busy : s.raiseFatal.busy = false := rfl
@[simp] theorem raiseFatal_dvalid : s.raiseFatal.dvalid = s.dvalid := rfl
@[simp] theorem raiseFatal_perr : s.raiseFatal.perr = s.perr := rfl
@[simp] theorem raiseFatal_fatal : s.raiseFatal.fatal = true := rfl
@[simp] theorem raiseFatal_result : s.raiseFatal.result = resErrFatal := rfl
@[simp] theorem raiseFatal_tier : s.raiseFatal.tier = s.tier := rfl
@[simp] theorem raiseFatal_phase : s.raiseFatal.phase = phFatal := rfl
@[simp] theorem raiseFatal_cursor : s.raiseFatal.cursor = s.cursor := rfl
@[simp] theorem raiseFatal_remain : s.raiseFatal.remain = s.remain := rfl
@[simp] theorem raiseFatal_h : s.raiseFatal.h = s.h := rfl
@[simp] theorem raiseFatal_lseed : s.raiseFatal.lseed = s.lseed := rfl
@[simp] theorem raiseFatal_lwidth : s.raiseFatal.lwidth = s.lwidth := rfl
@[simp] theorem raiseFatal_ltier : s.raiseFatal.ltier = s.ltier := rfl
@[simp] theorem raiseFatal_lbuf : s.raiseFatal.lbuf = s.lbuf := rfl
@[simp] theorem raiseFatal_llen : s.raiseFatal.llen = s.llen := rfl
@[simp] theorem raiseFatal_seedw : s.raiseFatal.seedw = s.seedw := rfl
@[simp] theorem raiseFatal_blk : s.raiseFatal.blk = s.blk := rfl
@[simp] theorem raiseFatal_p : s.raiseFatal.p = s.p := rfl
@[simp] theorem raiseFatal_count : s.raiseFatal.count = s.count := rfl
@[simp] theorem raiseFatal_mem : s.raiseFatal.mem = s.mem := rfl
@[simp] theorem raiseFatal_devices : s.raiseFatal.devices = s.devices := rfl
@[simp] theorem raiseFatal_script : s.raiseFatal.script = s.script := rfl
@[simp] theorem raiseFatal_rdata : s.raiseFatal.rdata = s.rdata := rfl
@[simp] theorem raiseFatal_returned : s.raiseFatal.returned = s.returned := rfl
@[simp] theorem raiseFatal_raced : s.raiseFatal.raced = s.raced := rfl
@[simp] theorem raiseFatal_draws : s.raiseFatal.draws = s.draws := rfl
@[simp] theorem raiseFatal_reads : s.raiseFatal.reads = s.reads := rfl

/-! ### `State.accept` -/

@[simp] theorem accept_seed : s.accept.seed = s.seed := rfl
@[simp] theorem accept_width : s.accept.width = s.width := rfl
@[simp] theorem accept_tierreq : s.accept.tierreq = s.tierreq := rfl
@[simp] theorem accept_buflo : s.accept.buflo = s.buflo := rfl
@[simp] theorem accept_bufhi : s.accept.bufhi = s.bufhi := rfl
@[simp] theorem accept_lenlo : s.accept.lenlo = s.lenlo := rfl
@[simp] theorem accept_lenhi : s.accept.lenhi = s.lenhi := rfl
@[simp] theorem accept_opa : s.accept.opa = s.opa := rfl
@[simp] theorem accept_opb : s.accept.opb = s.opb := rfl
@[simp] theorem accept_res : s.accept.res = s.res := rfl
@[simp] theorem accept_digest : s.accept.digest = Vector.replicate 32 0 := rfl
@[simp] theorem accept_busy : s.accept.busy = true := rfl
@[simp] theorem accept_dvalid : s.accept.dvalid = false := rfl
@[simp] theorem accept_perr : s.accept.perr = s.perr := rfl
@[simp] theorem accept_fatal : s.accept.fatal = s.fatal := rfl
@[simp] theorem accept_result : s.accept.result = resNone := rfl
@[simp] theorem accept_tier : s.accept.tier = s.tier := rfl
@[simp] theorem accept_phase : s.accept.phase = phSeltier := rfl
@[simp] theorem accept_cursor : s.accept.cursor = 0 := rfl
@[simp] theorem accept_remain : s.accept.remain = s.len := rfl
@[simp] theorem accept_h : s.accept.h = s.h := rfl
@[simp] theorem accept_lseed : s.accept.lseed = s.seed := rfl
@[simp] theorem accept_lwidth : s.accept.lwidth = s.width := rfl
@[simp] theorem accept_ltier : s.accept.ltier = s.tierreq := rfl
@[simp] theorem accept_lbuf : s.accept.lbuf = s.buf := rfl
@[simp] theorem accept_llen : s.accept.llen = s.len := rfl
@[simp] theorem accept_seedw : s.accept.seedw = s.seedw := rfl
@[simp] theorem accept_blk : s.accept.blk = s.blk := rfl
@[simp] theorem accept_p : s.accept.p = s.p := rfl
@[simp] theorem accept_count : s.accept.count = s.count := rfl
@[simp] theorem accept_mem : s.accept.mem = s.mem := rfl
@[simp] theorem accept_devices : s.accept.devices = s.devices := rfl
@[simp] theorem accept_script : s.accept.script = s.script := rfl
@[simp] theorem accept_rdata : s.accept.rdata = s.rdata := rfl
@[simp] theorem accept_returned : s.accept.returned = s.returned := rfl
@[simp] theorem accept_raced : s.accept.raced = [] := rfl
@[simp] theorem accept_draws : s.accept.draws = s.draws + 1 := rfl
@[simp] theorem accept_reads : s.accept.reads = [] := rfl

/-! ### `State.applyReset` -/

@[simp] theorem applyReset_seed : s.applyReset.seed = State.reset.seed := rfl
@[simp] theorem applyReset_width : s.applyReset.width = State.reset.width := rfl
@[simp] theorem applyReset_tierreq : s.applyReset.tierreq = State.reset.tierreq := rfl
@[simp] theorem applyReset_buflo : s.applyReset.buflo = State.reset.buflo := rfl
@[simp] theorem applyReset_bufhi : s.applyReset.bufhi = State.reset.bufhi := rfl
@[simp] theorem applyReset_lenlo : s.applyReset.lenlo = State.reset.lenlo := rfl
@[simp] theorem applyReset_lenhi : s.applyReset.lenhi = State.reset.lenhi := rfl
@[simp] theorem applyReset_opa : s.applyReset.opa = State.reset.opa := rfl
@[simp] theorem applyReset_opb : s.applyReset.opb = State.reset.opb := rfl
@[simp] theorem applyReset_res : s.applyReset.res = State.reset.res := rfl
@[simp] theorem applyReset_digest : s.applyReset.digest = State.reset.digest := rfl
@[simp] theorem applyReset_busy : s.applyReset.busy = State.reset.busy := rfl
@[simp] theorem applyReset_dvalid : s.applyReset.dvalid = State.reset.dvalid := rfl
@[simp] theorem applyReset_perr : s.applyReset.perr = State.reset.perr := rfl
@[simp] theorem applyReset_fatal : s.applyReset.fatal = State.reset.fatal := rfl
@[simp] theorem applyReset_result : s.applyReset.result = State.reset.result := rfl
@[simp] theorem applyReset_tier : s.applyReset.tier = State.reset.tier := rfl
@[simp] theorem applyReset_phase : s.applyReset.phase = State.reset.phase := rfl
@[simp] theorem applyReset_cursor : s.applyReset.cursor = State.reset.cursor := rfl
@[simp] theorem applyReset_remain : s.applyReset.remain = State.reset.remain := rfl
@[simp] theorem applyReset_h : s.applyReset.h = State.reset.h := rfl
@[simp] theorem applyReset_lseed : s.applyReset.lseed = State.reset.lseed := rfl
@[simp] theorem applyReset_lwidth : s.applyReset.lwidth = State.reset.lwidth := rfl
@[simp] theorem applyReset_ltier : s.applyReset.ltier = State.reset.ltier := rfl
@[simp] theorem applyReset_lbuf : s.applyReset.lbuf = State.reset.lbuf := rfl
@[simp] theorem applyReset_llen : s.applyReset.llen = State.reset.llen := rfl
@[simp] theorem applyReset_seedw : s.applyReset.seedw = State.reset.seedw := rfl
@[simp] theorem applyReset_blk : s.applyReset.blk = State.reset.blk := rfl
@[simp] theorem applyReset_p : s.applyReset.p = State.reset.p := rfl
@[simp] theorem applyReset_count : s.applyReset.count = State.reset.count := rfl
@[simp] theorem applyReset_mem : s.applyReset.mem = s.mem := rfl
@[simp] theorem applyReset_devices : s.applyReset.devices = s.devices := rfl
@[simp] theorem applyReset_script : s.applyReset.script = s.script := rfl
@[simp] theorem applyReset_rdata : s.applyReset.rdata = s.rdata := rfl
@[simp] theorem applyReset_returned : s.applyReset.returned = s.returned := rfl
@[simp] theorem applyReset_raced : s.applyReset.raced = State.reset.raced := rfl
@[simp] theorem applyReset_draws : s.applyReset.draws = s.draws := rfl
@[simp] theorem applyReset_reads : s.applyReset.reads = State.reset.reads := rfl

/-! ### `waitRead` -/

/-- Bit 0 of STATUS is BUSY (10_state.md R28). -/
theorem statusWord_busy : s.statusWord.getLsbD 0 = s.busy := by
  have h : s.statusWord.getLsbD 0 = _ := BitVec.getLsbD_append
  simpa using h

@[simp] theorem waitRead_seed : (waitRead s).seed = s.seed := rfl
@[simp] theorem waitRead_width : (waitRead s).width = s.width := rfl
@[simp] theorem waitRead_tierreq : (waitRead s).tierreq = s.tierreq := rfl
@[simp] theorem waitRead_buflo : (waitRead s).buflo = s.buflo := rfl
@[simp] theorem waitRead_bufhi : (waitRead s).bufhi = s.bufhi := rfl
@[simp] theorem waitRead_lenlo : (waitRead s).lenlo = s.lenlo := rfl
@[simp] theorem waitRead_lenhi : (waitRead s).lenhi = s.lenhi := rfl
@[simp] theorem waitRead_opa : (waitRead s).opa = s.opa := rfl
@[simp] theorem waitRead_opb : (waitRead s).opb = s.opb := rfl
@[simp] theorem waitRead_res : (waitRead s).res = s.res := rfl
@[simp] theorem waitRead_digest : (waitRead s).digest = s.digest := rfl
@[simp] theorem waitRead_busy : (waitRead s).busy = s.busy := rfl
@[simp] theorem waitRead_dvalid : (waitRead s).dvalid = s.dvalid := rfl
@[simp] theorem waitRead_perr : (waitRead s).perr = s.perr := rfl
@[simp] theorem waitRead_fatal : (waitRead s).fatal = s.fatal := rfl
@[simp] theorem waitRead_result : (waitRead s).result = s.result := rfl
@[simp] theorem waitRead_tier : (waitRead s).tier = s.tier := rfl
@[simp] theorem waitRead_phase : (waitRead s).phase = s.phase := rfl
@[simp] theorem waitRead_cursor : (waitRead s).cursor = s.cursor := rfl
@[simp] theorem waitRead_remain : (waitRead s).remain = s.remain := rfl
@[simp] theorem waitRead_h : (waitRead s).h = s.h := rfl
@[simp] theorem waitRead_lseed : (waitRead s).lseed = s.lseed := rfl
@[simp] theorem waitRead_lwidth : (waitRead s).lwidth = s.lwidth := rfl
@[simp] theorem waitRead_ltier : (waitRead s).ltier = s.ltier := rfl
@[simp] theorem waitRead_lbuf : (waitRead s).lbuf = s.lbuf := rfl
@[simp] theorem waitRead_llen : (waitRead s).llen = s.llen := rfl
@[simp] theorem waitRead_seedw : (waitRead s).seedw = s.seedw := rfl
@[simp] theorem waitRead_blk : (waitRead s).blk = s.blk := rfl
@[simp] theorem waitRead_p : (waitRead s).p = s.p := rfl
@[simp] theorem waitRead_count : (waitRead s).count = s.count := rfl
@[simp] theorem waitRead_mem : (waitRead s).mem = s.mem := rfl
@[simp] theorem waitRead_devices : (waitRead s).devices = s.devices := rfl
@[simp] theorem waitRead_script :
    (waitRead s).script = if s.busy then .engine :: .wait :: s.script else s.script := by
  show (if s.statusWord.getLsbD 0 then _ else _) = _
  rw [statusWord_busy]
@[simp] theorem waitRead_rdata : (waitRead s).rdata = some s.statusWord := rfl
@[simp] theorem waitRead_returned : (waitRead s).returned = s.returned := rfl
@[simp] theorem waitRead_raced : (waitRead s).raced = s.raced := rfl
@[simp] theorem waitRead_draws : (waitRead s).draws = s.draws := rfl
@[simp] theorem waitRead_reads : (waitRead s).reads = s.reads := rfl

/-! ### The operands that are assembled from fields -/

@[simp] theorem raiseProtocolError_statusFields :
    s.raiseProtocolError.buf = s.buf ∧ s.raiseProtocolError.len = s.len := ⟨rfl, rfl⟩
@[simp] theorem accept_n : s.accept.n = laneWords s.width.toNat := rfl
@[simp] theorem accept_bs : s.accept.bs = blockBytes s.width.toNat := rfl
@[simp] theorem accept_readAddress : s.accept.readAddress = s.buf.toNat := by
  simp [State.readAddress]

end Sys2Proof.Machine
end

