-- ==== Sys2Proof/Laws/Ops.lean ====
section
/-!
SUPPORT. What each shared operation can do, said once: the checks of a command and of a phase step, the host's
accesses, the engine's turn, and the step. Proofs about the machine cite these instead of unfolding it.
-/

namespace Sys2Proof.Machine

/-- All that a command can do (60_exceptions.md R245 lines 1 and 2, then its effect). -/
theorem commandStep_cases (s : State) (effect : Result) :
    (s.busy = true ∧ commandStep s effect = .next s.raiseProtocolError) ∨
    (s.busy = false ∧ s.fatal = true ∧ commandStep s effect = .next s) ∨
    (s.busy = false ∧ s.fatal = false ∧ commandStep s effect = effect) := by
  cases hb : s.busy <;> cases hf : s.fatal <;> simp [commandStep, hb, hf]

theorem commandStep_of_idle {s : State} (hb : s.busy = false) (hf : s.fatal = false) (effect : Result) :
    commandStep s effect = effect := by simp [commandStep, hb, hf]

/-- All that a phase step can do (60_exceptions.md R250, or its effect). -/
theorem phaseStep_cases (s : State) (effect : Result) :
    (s.contractHolds = false ∧ phaseStep s effect = .next s.raiseFatal) ∨
    (s.contractHolds = true ∧ phaseStep s effect = effect) := by
  cases h : s.contractHolds <;> simp [phaseStep, h]

theorem phaseStep_of_contract {s : State} (h : s.contractHolds = true) (effect : Result) :
    phaseStep s effect = effect := by simp [phaseStep, h]

/-- The phase after SEEDX and CONSUME is CONSUMING or DRAINING (44_block_driver.md R171). -/
theorem nextBlockPhase_cases (r : Addr) (bs : Nat) :
    (bs ≤ r.toNat ∧ nextBlockPhase r bs = phConsuming) ∨ (r.toNat < bs ∧ nextBlockPhase r bs = phDraining) := by
  by_cases h : bs ≤ r.toNat
  · exact .inl ⟨h, by simp [nextBlockPhase, h]⟩
  · exact .inr ⟨by omega, by simp [nextBlockPhase, h]⟩

/-! ### Decoding -/

/-- The three command words (30_encoding.md R92). -/
theorem decodeCommand_ok {c : Word} {i : Instr} (h : decode (.command c) = .ok i) :
    (i = .mix ∨ i = .mixc ∨ i = .hash) := by
  simp only [decode, decodeCommand] at h
  split at h
  · cases h
  split at h
  · cases h; simp
  split at h
  · cases h; simp
  split at h
  · cases h; simp
  · cases h

/-- The eight phase codes (30_encoding.md R93). -/
theorem decodePhase_ok {p : BitVec 4} {i : Instr} (h : decode (.phase p) = .ok i) :
    (p = phSeltier ∧ i = .seltier) ∨ (p = phSeedx ∧ i = .seedx) ∨ (p = phConsuming ∧ i = .consume) ∨
    (p = phDraining ∧ i = .drain) ∨ (p = phDiffuse ∧ i = .diffuse) ∨ (p = phFold ∧ i = .fold) ∨
    (p = phHalve ∧ i = .halve) ∨ (p = phEmit ∧ i = .emit) := by
  revert h
  revert p
  cases i <;> decide

/-! ### The engine's turn and the host's accesses -/

/-- All that the engine's turn can do. -/
theorem engineTurn_cases (s : State) :
    engineTurn s = .next s.raiseFatal ∨ engineTurn s = .next s ∨
    (∃ i, decode (.phase s.phase) = .ok i ∧ reservedResult s.result = false ∧ engineTurn s = exec i s) := by
  unfold engineTurn
  cases hr : reservedResult s.result with
  | true => simp
  | false =>
    cases hd : decode (.phase s.phase) with
    | ok i => exact .inr (.inr ⟨i, rfl, rfl, by simp⟩)
    | error e => cases e <;> simp

/-- All that a write of CMD can do (60_exceptions.md R245). -/
theorem writeCmd_cases (s : State) (c : Word) :
    (s.busy = true ∧ writeCmd s c = .next s.raiseProtocolError) ∨
    (s.busy = false ∧ s.fatal = true ∧ writeCmd s c = .next s) ∨
    (s.busy = false ∧ s.fatal = false ∧ (∃ e, decode (.command c) = .error e) ∧
      writeCmd s c = .next s.raiseIllegalCommand) ∨
    (s.busy = false ∧ s.fatal = false ∧ ∃ i, decode (.command c) = .ok i ∧ writeCmd s c = exec i s) := by
  unfold writeCmd
  cases hb : s.busy <;> cases hf : s.fatal <;> simp
  cases hd : decode (.command c) <;> simp

/-- A write of a register other than CMD changes one configuration register, or PERR, or nothing. -/
theorem writeReg_cases (s : State) (r : Reg) (v : Word) :
    (s.busy = true ∧ writeReg s r v = .next s.raiseProtocolError) ∨
    (s.busy = false ∧ r = .cmd ∧ writeReg s r v = writeCmd s v) ∨
    (s.busy = false ∧ r ≠ .cmd ∧ ∃ t, writeReg s r v = .next t ∧
      t = { s with
        seed := t.seed, width := t.width, tierreq := t.tierreq, buflo := t.buflo, bufhi := t.bufhi,
        lenlo := t.lenlo, lenhi := t.lenhi, opa := t.opa, opb := t.opb }) := by
  by_cases hb : s.busy = true
  · exact .inl ⟨hb, by simp [writeReg, hb]⟩
  · have hb' : s.busy = false := by simpa using hb
    by_cases hr : r = .cmd
    · exact .inr (.inl ⟨hb', hr, by simp [writeReg, hb', hr]⟩)
    · refine .inr (.inr ⟨hb', hr, ?_⟩)
      unfold writeReg
      rw [if_neg hb]
      cases r <;> first
        | exact absurd rfl hr
        | exact ⟨_, rfl, rfl⟩

/-- All that `wait` can do: its read of STATUS, and, while BUSY = 1, the read again after a turn of the engine
(30_encoding.md R98). -/
theorem waitRead_cases (s : State) :
    (s.busy = false ∧ waitRead s = { s with rdata := some s.statusWord }) ∨
    (s.busy = true ∧
      waitRead s = { s with rdata := some s.statusWord, script := .engine :: .wait :: s.script }) := by
  have e : waitRead s = { s with rdata := some s.statusWord, script := (waitRead s).script } := rfl
  rw [waitRead_script] at e
  cases h : s.busy <;> simp [e, h]

/-- All that the end of `hash` can do (30_encoding.md R98), after a read of STATUS. -/
theorem collectDigest_cases (s : State) (v width : Word) (h : s.rdata = some v) :
    (v.extractLsb' 4 4 = resOk ∧ collectDigest s width =
      some ((List.range (digestWords width.toNat)).map fun k => readReg s (regAt (0x080 + 4 * k)))) ∨
    (v.extractLsb' 4 4 ≠ resOk ∧ collectDigest s width = none) := by
  by_cases hv : v.extractLsb' 4 4 = resOk <;> simp [collectDigest, h, hv]

/-- All that one step can do: the engine's turn, or one action of the host. -/
theorem step_cases (s : State) :
    (s.script = [] ∧ step s = engineTurn s) ∨
    (∃ e rest, s.script = e :: rest ∧ step s = performEvent { s with script := rest } e) := by
  unfold step machineStep
  cases h : s.script with
  | nil => exact .inl ⟨rfl, rfl⟩
  | cons e rest => exact .inr ⟨e, rest, rfl, rfl⟩

/-! ### Placing an instruction -/

/-- A placed command is the host's next action. -/
theorem step_withFetchWord_command (s : State) (nbits w : Nat) (h : 8 < nbits) :
    step (s.withFetchWord nbits w) = writeReg s .cmd (BitVec.ofNat 32 w) := by
  have : ¬ nbits ≤ 8 := by omega
  simp [step, machineStep, State.withFetchWord, State.placeInstruction, this, performEvent,
    accessWellFormed, regAt]

end Sys2Proof.Machine
end

