-- ==== Sys2Proof/Laws/PerInstr.lean ====
section
/-!
SUPPORT. Per instruction: its code decodes to it.
-/

namespace Sys2Proof.Laws

/-- Decoding the code of an instruction gives the instruction back (30_encoding.md R91 to R93). -/
def CodeRoundTrip.Statement (i : Instr) : Prop := i.wellFormed = true ∧ decode (encode i) = .ok i

theorem CodeRoundTrip.mix : CodeRoundTrip.Statement .mix := ⟨rfl, rfl⟩
theorem CodeRoundTrip.mixc : CodeRoundTrip.Statement .mixc := ⟨rfl, rfl⟩
theorem CodeRoundTrip.hash : CodeRoundTrip.Statement .hash := ⟨rfl, rfl⟩
theorem CodeRoundTrip.seltier : CodeRoundTrip.Statement .seltier := ⟨rfl, rfl⟩
theorem CodeRoundTrip.seedx : CodeRoundTrip.Statement .seedx := ⟨rfl, rfl⟩
theorem CodeRoundTrip.consume : CodeRoundTrip.Statement .consume := ⟨rfl, rfl⟩
theorem CodeRoundTrip.drain : CodeRoundTrip.Statement .drain := ⟨rfl, rfl⟩
theorem CodeRoundTrip.diffuse : CodeRoundTrip.Statement .diffuse := ⟨rfl, rfl⟩
theorem CodeRoundTrip.fold : CodeRoundTrip.Statement .fold := ⟨rfl, rfl⟩
theorem CodeRoundTrip.halve : CodeRoundTrip.Statement .halve := ⟨rfl, rfl⟩
theorem CodeRoundTrip.emit : CodeRoundTrip.Statement .emit := ⟨rfl, rfl⟩

end Sys2Proof.Laws
end

