-- ==== Sys2Proof/Tests/Slice0.lean ====
section
/-!
SUPPORT. Tests on single steps and single operations, their expected values taken from spec/ (mostly from
95_test_vectors.md); the smoke test of the well-formedness checks; and, for each statement with hypotheses, a
witness that meets them.
-/

-- The tests are checked one after another: a thread for each would need more memory than the check grants.
set_option Elab.async false

namespace Sys2Proof.Tests

open Sys2Proof Sys2Proof.Machine

/-- The next state of a result, if it is one. -/
def nextOf : Result → Option State
  | .next t => some t
  | _ => none

/-- The refusal of a result, if it is one. -/
def refusalOf : Result → Option Refusal
  | .refused r => some r
  | _ => none

/-! ### Well-formedness: each check refuses an ill-formed term -/

theorem test_wf_refuses_halfword_write : Event.wellFormed (.write 0x008 2 5) = false := by decide
theorem test_wf_refuses_misaligned_write : Event.wellFormed (.write 0x00A 4 5) = false := by decide
theorem test_wf_refuses_byte_read : Event.wellFormed (.read 0x004 1) = false := by decide
theorem test_wf_refuses_misaligned_read : Event.wellFormed (.read 0x005 4) = false := by decide
theorem test_wf_refuses_store_outside_the_space : Event.wellFormed (.store (2 ^ 64) 1) = false := by decide
theorem test_wf_accepts_aligned_write : Event.wellFormed (.write 0x008 4 5) = true := by decide

/-! ### Decoding: words written out from 30_encoding.md R92, R93 -/

theorem test_decode_mix : decode (.command 0b00000000000000000000000000000001#32) = .ok .mix := rfl
theorem test_decode_mixc : decode (.command 0b00000000000000000000000000000010#32) = .ok .mixc := rfl
theorem test_decode_hash : decode (.command 0b00000000000000000000000000010000#32) = .ok .hash := rfl
theorem test_decode_seltier : decode (.phase 0b0001#4) = .ok .seltier := rfl
theorem test_decode_seedx : decode (.phase 0b0010#4) = .ok .seedx := rfl
theorem test_decode_consume : decode (.phase 0b0011#4) = .ok .consume := rfl
theorem test_decode_drain : decode (.phase 0b0100#4) = .ok .drain := rfl
theorem test_decode_diffuse : decode (.phase 0b0101#4) = .ok .diffuse := rfl
theorem test_decode_fold : decode (.phase 0b0110#4) = .ok .fold := rfl
theorem test_decode_halve : decode (.phase 0b0111#4) = .ok .halve := rfl
theorem test_decode_emit : decode (.phase 0b1000#4) = .ok .emit := rfl

/-- 95_test_vectors.md 3.10: 0x00, 0x03, 0x110, 0x80000001 are illegal. -/
theorem test_decode_illegal_words :
    decode (.command 0x00) = .error .unknownOpcode ∧ decode (.command 0x03) = .error .unknownOpcode ∧
    decode (.command 0x110) = .error .reservedBits ∧
    decode (.command 0x80000001) = .error .reservedBits := ⟨rfl, rfl, rfl, rfl⟩

theorem test_decode_phases_that_name_no_step :
    decode (.phase 0) = .error .idlePhase ∧ decode (.phase 9) = .error .reservedPhase ∧
    decode (.phase 14) = .error .reservedPhase ∧ decode (.phase 15) = .error .fatalPhase := ⟨rfl, rfl, rfl, rfl⟩

/-! ### MIX and MIXC -/

/-- 41_wordmix.md R125, the worked example. -/
theorem test_mix_writes_res :
    (nextOf (exec .mix { State.reset with opa := 0x12345678, opb := 0x9abcdef0 })).map
      (fun t => (t.res, t.statusWord)) = some (0x7f6e9d4c#32, 0x10#32) := by decide +kernel

/-- 95_test_vectors.md 3.1: the sum wraps. -/
theorem test_mix_wraps : mix 0xffffffff 0x00000001 = 0xfff7dffd := by decide +kernel

/-- 41_wordmix.md R126, with the illustrative constant. -/
theorem test_mixc_function : mix1 0x01234567 0xfd4c799d = 0x60147016 := by decide +kernel

/-- 41_wordmix.md R126: OPB is ignored; STATUS reads OK. -/
theorem test_mixc_status :
    (nextOf (exec .mixc { State.reset with opb := 7 })).map (fun t => (t.statusWord, t.opb)) =
      some (0x10#32, 7#32) := by decide +kernel

/-! ### HASH -/

/-- 95_test_vectors.md 3.10, first row: WIDTH is still 0. -/
theorem test_hash_rejects_width_zero :
    (nextOf (exec .hash State.reset)).map (fun t => t.statusWord) = some 0x20#32 := by decide +kernel

/-- 95_test_vectors.md P2, line 4. -/
theorem test_hash_accepts :
    (nextOf (exec .hash { State.reset with seed := 0xfd4c799d, width := 64, buflo := 0x1000 })).map
      (fun t => (t.statusWord, t.lseed, t.lbuf)) = some (0x1001#32, 0xfd4c799d#32, 0x1000#64) := by
  decide +kernel

/-! ### The phase steps -/

/-- A HASH in progress at a phase, on an empty buffer, with the digest width `w`. -/
def inPhase (p : BitVec 4) (w : Word) : State :=
  { State.reset with busy := true, phase := p, lwidth := w }

/-- 46_tier_selector.md R234, rows 2, 7, 10 and 11. -/
theorem test_selectTier_rows :
    selectTier ⟨true, true, true⟩ 0 0x1020 = 2 ∧ selectTier ⟨true, true, true⟩ 4 0x1010 = 1 ∧
    selectTier ⟨true, false, false⟩ 4 0x1000 = 1 ∧ selectTier ⟨true, false, true⟩ 3 0x1000 = 1 := by
  decide +kernel

/-- 46_tier_selector.md R234, row 4: an odd address, whatever the capabilities; then SEEDX. -/
theorem test_seltier_goes_on :
    (nextOf (exec .seltier { inPhase 1 32 with lbuf := 0x1001, ltier := 1 })).map
      (fun t => (t.tier, t.phase)) = some (0#2, 2#4) := by decide +kernel

/-- 42_seed_expansion.md R144, first row. -/
theorem test_seedx_lanes :
    let h := seedLanes 0x01234567 0xfd4c799d 16 zeroLanes
    (h.word 1 0, h.word 2 15, h.word 3 7, h.word 4 15, h.word 4 16) =
      (0xfd4c799d#32, 0x60147016#32, 0xcfa4b410#32, 0xa0c80319#32, 0#32) := by decide +kernel

/-- 44_block_driver.md R171: with no full block SEEDX goes on to DRAINING. -/
theorem test_seedx_goes_on :
    (nextOf (exec .seedx (inPhase 2 32))).map (fun t => t.phase) = some 4#4 := by decide +kernel

/-- 43_mixing_round.md R150, the worked example. -/
theorem test_substep : substep 0x12345678 0x9abcdef0 0x0f0f0f0f = (0xc4d58716#32, 0x3c3c3c3c#32) := by
  decide +kernel

/-- 43_mixing_round.md R158: one index through a round, as its lanes and its block would be at N = 1. -/
theorem test_round_at_one_index :
    let x : Word → Lane := fun v => tabulate 64 fun _ => v
    let h : Lanes := ⟨x 0xfd4c799d, x 0x60147016, x 0xcfa4b410, x 0xa0c80319⟩
    let g := scalarRound 1 [0x04030201, 0x44434241, 0x84838281, 0xc4c3c2c1] h
    (g.word 1 0, g.word 2 0, g.word 3 0, g.word 4 0, g.word 1 1) =
      (0x3440e5c5#32, 0xbec7be6b#32, 0xfae9b323#32, 0x451be988#32, 0xfd4c799d#32) := by decide +kernel

/-- `n` backed bytes from address `a`: byte `j` is `j mod 251` (95_test_vectors.md P4). -/
def testMemory (a n : Nat) : Memory := (List.range n).map fun j => (a + j, BitVec.ofNat 8 (j % 251))

theorem testMemory_wf (a n : Nat) (h : a + n ≤ 2 ^ 64) : Memory.wf (testMemory a n) := by
  constructor
  · rw [testMemory, List.pairwise_map]
    exact List.pairwise_lt_range.imp fun hlt => by simpa using hlt
  · intro x hx
    obtain ⟨j, hj, rfl⟩ := List.mem_map.1 hx
    have := List.mem_range.1 hj
    show a + j < 2 ^ 64
    omega

/-- Every byte of the test memory is backed. -/
theorem backed_testMemory (a n j : Nat) (h : j < n) : (testMemory a n).backed (a + j) = true := by
  induction n with
  | zero => omega
  | succ n ih =>
    have happ : ∀ (m m' : Memory) (x : Nat), Memory.backed (m ++ m') x = (m.backed x || m'.backed x) := by
      intro m m' x
      induction m with
      | nil => simp [Memory.backed]
      | cons c m ihm =>
        obtain ⟨k, b⟩ := c
        by_cases hk : x = k
        · simp [Memory.backed, Memory.read, hk]
        · simpa [Memory.backed, Memory.read, hk] using ihm
    rw [testMemory, List.range_succ, List.map_append, happ]
    by_cases hj : j < n
    · have := ih hj
      rw [testMemory] at this
      simp [this]
    · have : j = n := by omega
      subst this
      simp [Memory.backed, Memory.read]

theorem backedRun_testMemory (a n : Nat) : backedRun (testMemory a n) a n = true := by
  simp only [backedRun, List.all_eq_true, List.mem_range]
  exact fun j hj => backed_testMemory a n j hj

/-- On backed bytes the read gives data. -/
theorem readBuffer_of_backed (s : State) (a n : Nat) (h : backedRun s.mem a n = true) :
    ∃ bytes, s.readBuffer a n = .data bytes := by
  rcases readBuffer_spec s a n with ⟨bytes, hr, _⟩ | ⟨k, _, hk, _, _, hn, _⟩
  · exact ⟨bytes, hr⟩
  · simp only [backedRun, List.all_eq_true, List.mem_range] at h
    have hb := h k hk
    rw [← bufferByte_isSome, hn] at hb
    simp at hb

/-- 95_test_vectors.md P4 after SEEDX, but the lanes: a 600-byte buffer at 0x4020, width 256; the memory lists its
first block, which is what the step reads. -/
def consuming : State :=
  { inPhase 3 256 with lbuf := 0x4020, llen := 600, remain := 600, mem := testMemory 0x4020 256 }

/-- 95_test_vectors.md P4, line 5: CURSOR, REMAIN and the next phase. -/
theorem test_consume_advances :
    (nextOf (exec .consume consuming)).map (fun t => (t.cursor, t.remain, t.phase)) =
      some (256#64, 344#64, 3#4) := by
  obtain ⟨bytes, hb⟩ := readBuffer_of_backed consuming 0x4020 256 (backedRun_testMemory 0x4020 256)
  have hc : exec .consume consuming = .next (consuming.consumeBlock bytes) := by
    have : consuming.readBuffer consuming.readAddress consuming.bs = .data bytes := hb
    simp only [exec, execConsume, this]
    rfl
  rw [hc]
  rfl

/-- 95_test_vectors.md P5, line 7: the first byte of the tail is not backed. -/
theorem test_drain_bus_error :
    let s : State :=
      { inPhase 4 32 with lbuf := 0x8000, llen := 300, cursor := 256, remain := 44, perr := true }
    (nextOf (exec .drain s)).map (fun t => (t.statusWord, t.cursor)) = some (0x44#32, 256#64) := by
  decide +kernel

/-- 95_test_vectors.md P3 after SEEDX, but the lanes: "abc" at an odd address. -/
def draining : State :=
  { inPhase 4 64 with
    lbuf := 0x2003, llen := 3, remain := 3
    mem := [(0x2003, 0x61), (0x2004, 0x62), (0x2005, 0x63), (0x2006, 0xEE)] }

/-- 44_block_driver.md R185, second row: BLK ends with the pad byte 253; then DIFFUSE. -/
theorem test_drain_pads :
    (nextOf (exec .drain draining)).map
      (fun t => (entry t.blk 0, entry t.blk 2, entry t.blk 3, entry t.blk 255, t.phase, t.reads.length)) =
      some (0x61#8, 0x63#8, 1#8, 253#8, 5#4, 3) := by decide +kernel

/-- 44_block_driver.md R185, second row: the first words of the padded block. -/
theorem test_padded_words :
    (wordsOf (padBlock 256 [0x61, 0x62, 0x63])).take 2 = [0x01636261#32, 0x05040302#32] := by decide +kernel

/-- 45_finalizer.md R201, with the illustrative constant: `lm` for LLEN = 5, and index 0 of the running example;
only bits 30:0 of the length count. -/
theorem test_length_mix :
    mix1 0x01234567 (lengthWord 5) = 0x949f3660 ∧ lengthWord 0x80000005 = 5 ∧
    (lenMix 0x01234567 1 0 ⟨tabulate 64 fun _ => 0x3440e5c5, zeroLane, zeroLane, zeroLane⟩).word 1 0 =
      0xa0874b98 := by decide +kernel

/-- 45_finalizer.md R205: index 0 of the running example through the reference passes, as a program. -/
theorem test_reference_program :
    let x : Word → Lane := fun v => tabulate 64 fun _ => v
    let h : Lanes := ⟨x 0xa0874b98, x 0x2a001036, x 0x6e2e1d7e, x 0xd1dc47d5⟩
    let prog : DiffuseProgram := ⟨referenceOpsAt 0, referenceOpsAt 0⟩
    let g := runProgram 0x01234567 prog 1 h
    (g.word 1 0, g.word 2 0, g.word 3 0, g.word 4 0) =
      (0xec599389#32, 0x18c9e448#32, 0xa9491a54#32, 0x1d606bea#32) := by decide +kernel

/-- A lane of sixteen words. -/
def laneOf (ws : List Word) : Lane := tabulate 64 fun i => ws.getD i 0

/-- The lanes of the running example after DIFFUSE (95_test_vectors.md section 4). -/
def diffused : Lanes where
  h1 := laneOf [0xec599389, 0x8bd4d5a0, 0x63e0f422, 0x6b227d2b, 0xc1049137, 0xa1c30ce7, 0x5882b20a, 0x4c10f014,
    0x86a06294, 0xef420047, 0xd4fb322e, 0xa5d42a55, 0xad81c464, 0x20614c13, 0x98bf2ae7, 0x550feb03]
  h2 := laneOf [0x18c9e448, 0xfb23456f, 0x64da43ce, 0x44f7f4ee, 0xd3c742ca, 0x2d4c9efc, 0x98b34490, 0xfc0c8b64,
    0x558ff888, 0x7b91923a, 0x1eb14e2e, 0xe0c62d82, 0x7be9af4c, 0x6a860523, 0x80bbd205, 0x7349d8a0]
  h3 := laneOf [0xa9491a54, 0xaf39a2af, 0xa752ac0f, 0x18d54137, 0x8a7a085e, 0x84fa6020, 0x42e0f2c6, 0x3934365e,
    0x6a5a5a9b, 0xb4548f67, 0xbfdf43b1, 0x4f664de7, 0xa9a7d457, 0x0820d7dd, 0xf273437a, 0x01d3611f]
  h4 := laneOf [0x1d606bea, 0xec07b996, 0x1d3d036f, 0xc8e0e23b, 0x5dc66400, 0x26b7c3e8, 0x1e9522b5, 0x5cba1b8f,
    0x91d88b49, 0x7c645917, 0xa8f567d9, 0xe2b25e69, 0x8ca96576, 0x8ae64f61, 0xbd2d3087, 0x6065617e]

/-- 45_finalizer.md R211: FOLD at width 32. -/
theorem test_fold_at_four_words :
    (nextOf (exec .fold { inPhase 6 32 with h := diffused })).map
      (fun t => (entry t.p 0, entry t.p 1, entry t.p 2, entry t.p 3, t.count, t.phase)) =
      some (0x48dd88e5#32, 0xb9a20151#32, 0xd9fcb678#32, 0xa8da5bf3#32, 4, 7#4) := by decide +kernel

/-- 95_test_vectors.md section 4: FOLD at width 256, first and last word. -/
theorem test_fold_at_eight_words :
    (foldWord 256 diffused 0, foldWord 256 diffused 7) = (0xa6fb89a1#32, 0x2de40826#32) := by decide +kernel

/-- The provisional words of 45_finalizer.md R211. -/
def provisional : Vector Word 32 :=
  tabulate 32 fun i => [0x48dd88e5, 0xb9a20151, 0xd9fcb678, 0xa8da5bf3].getD i 0

/-- 45_finalizer.md R212, the worked example: width 64. -/
theorem test_halve_once :
    (nextOf (exec .halve { inPhase 7 64 with p := provisional, count := 4 })).map
      (fun t => (entry t.p 0, entry t.p 1, t.count, t.phase)) =
      some (0x8ed9258e#32, 0x5ffc19e4#32, 2, 8#4) := by decide +kernel

/-- 45_finalizer.md R212, the worked example: width 32. -/
theorem test_halve_twice :
    (nextOf (exec .halve { inPhase 7 32 with p := provisional, count := 4 })).map
      (fun t => (entry t.p 0, t.count)) = some (0xa2da9b61#32, 1) := by decide +kernel

/-- 45_finalizer.md R216, the worked example: STATUS reads 0x12, the third digest word 0. -/
theorem test_emit :
    let s : State :=
      { inPhase 8 64 with p := tabulate 32 fun i => [0x8ed9258e, 0x5ffc19e4, 0xd9fcb678].getD i 0, count := 2 }
    (nextOf (exec .emit s)).map
      (fun t => (t.statusWord, readReg t (.digest 0), readReg t (.digest 1), readReg t (.digest 2))) =
      some (0x12#32, 0x8ed9258e#32, 0x5ffc19e4#32, 0#32) := by decide +kernel

/-- 60_exceptions.md R250: EMIT with a wrong COUNT. -/
theorem test_emit_wrong_count_is_fatal :
    (nextOf (exec .emit (inPhase 8 64))).map (fun t => t.statusWord) = some 0xF058#32 := by decide +kernel

/-! ### The register interface -/

/-- 95_test_vectors.md 3.10: TIERREQ drops bits 31:3. -/
theorem test_tierreq_drops_high_bits :
    (nextOf (step { State.reset with script := [.write 0x010 4 0xfffffff8] })).map
      (fun t => readReg t .tierreq) = some 0#32 := by decide +kernel

/-- 95_test_vectors.md P5, line 5: a write while BUSY = 1. -/
theorem test_write_while_busy :
    (nextOf (step { inPhase 3 32 with script := [.write 0x008 4 0x55] })).map
      (fun t => (t.seed, t.perr, t.phase)) = some (0#32, true, 3#4) := by decide +kernel

theorem test_misaligned_access_is_refused :
    refusalOf (step { State.reset with script := [.read 0x006 4] }) = some .accessShape := by decide +kernel

/-- 20_memory.md R71. -/
theorem test_device_in_buffer_is_refused :
    refusalOf (exec .hash { State.reset with width := 32, lenlo := 16, devices := [⟨15, 1⟩] }) =
      some .deviceInBuffer := by decide +kernel

/-- Every register of the map is found at its offset. -/
theorem test_register_offsets :
    ([.cmd, .status, .seed, .width, .tierreq, .buflo, .bufhi, .lenlo, .lenhi, .opa, .opb, .res, .cap, .digest 0,
      .digest 31] : List Reg).all (fun r => (regOffset r).map regAt == some r) = true := by decide +kernel

theorem test_reserved_offsets :
    regAt 0x034 = .reserved ∧ regAt 0x07C = .reserved ∧ regAt 0x0FC = .digest 31 ∧ regAt 0x100 = .reserved := by
  decide +kernel

/-- The placed instruction is the one the next step runs. -/
theorem test_withFetchWord_runs_mix :
    (nextOf (step (State.reset.withFetchWord 32 1))).map (fun t => t.result) = some 1#4 := by decide +kernel

theorem test_withFetchWord_runs_emit :
    (nextOf (step (State.reset.withFetchWord 8 8))).map (fun t => t.statusWord) = some 0x12#32 := by
  decide +kernel

/-- The hex string of VH's 64-bit known vector (45_finalizer.md R218). -/
theorem test_hex_digest :
    hexDigest [0x73711a77, 0xd6031b6f] = "73711a77d6031b6f".toList := by decide +kernel

/-! ### Witnesses: states that meet the hypotheses of the statements -/

/-- The state of 95_test_vectors.md P3 when HASH is issued. -/
def issued : State :=
  { State.reset with
    seed := 0xfd4c799d, width := 64, tierreq := 4, buflo := 0x2003, lenlo := 3
    mem := [(0x2003, 0x61), (0x2004, 0x62), (0x2005, 0x63), (0x2006, 0xEE)]
    script := [.write 0x000 4 0x00000010] }

/-- The same bytes at another address, with another tier request and after another digest. -/
def issuedElsewhere : State :=
  { issued with
    tierreq := 0, buflo := 0x2040, dvalid := true, perr := true, result := 1, res := 9
    mem := [(0x2040, 0x61), (0x2041, 0x62), (0x2042, 0x63)] }

/-- A HASH of exactly one block of 256 bytes, ready to consume it. -/
def oneBlock : State :=
  { inPhase 3 32 with lbuf := 0x8000, llen := 256, remain := 256, mem := testMemory 0x8000 256 }

/-- For HashRunEndsWithTheDigest, HashTakesExactlyItsPhaseSteps, HashReadsEachBufferByteOnce. -/
theorem witness_HashIssued : HashIssued issued :=
  ⟨by decide, by decide +kernel, by decide +kernel, by decide +kernel, rfl⟩

theorem witness_HashIssued_elsewhere : HashIssued issuedElsewhere :=
  ⟨by decide, by decide +kernel, by decide +kernel, by decide +kernel, rfl⟩

theorem witness_TheDigestIgnoresTierAddressAndHistory :
    HashIssued issued ∧ HashIssued issuedElsewhere ∧ issued.seed = issuedElsewhere.seed ∧
    issued.width = issuedElsewhere.width ∧ issued.len = issuedElsewhere.len ∧
    bytesAt issued.mem issued.buf.toNat issued.len.toNat =
      bytesAt issuedElsewhere.mem issuedElsewhere.buf.toNat issuedElsewhere.len.toNat :=
  ⟨witness_HashIssued, witness_HashIssued_elsewhere, rfl, rfl, by decide +kernel, by decide +kernel⟩

/-- A buffer at the very top of the address space is issued too (44_block_driver.md R174). -/
theorem witness_HashIssued_at_the_top :
    HashIssued { State.reset with
      width := 1024, buflo := 0xffffffff, bufhi := 0xffffffff, lenlo := 1
      mem := [(2 ^ 64 - 1, 5)], script := [.write 0x000 4 0x00000010] } :=
  ⟨by decide, by decide +kernel, by decide +kernel, by decide +kernel, rfl⟩

/-- For MixCompletes, MixcCompletes. -/
theorem witness_command_idle : State.reset.busy = false ∧ State.reset.fatal = false := ⟨rfl, rfl⟩

theorem witness_HashAcceptsAValidConfiguration :
    issued.busy = false ∧ issued.fatal = false ∧ issued.width = 64 ∧ issued.tierreq.toNat ≤ 4 ∧
    (issued.bufhi.toNat * 2 ^ 32 + issued.buflo.toNat) +
      (issued.lenhi.toNat * 2 ^ 32 + issued.lenlo.toNat) ≤ 2 ^ 64 ∧ issued.deviceInBuffer = false := by
  decide +kernel

/-- One witness for each of the three causes: width 48, tier request 5, `BUF + LEN = 2^64 + 1`
(95_test_vectors.md 3.10). -/
theorem witness_HashRejectsABadConfiguration :
    (({ State.reset with width := 48 } : State).width ≠ 64 ∧ legalWidth 48 = false) ∧
    5 ≤ ({ State.reset with width := 32, tierreq := 5 } : State).tierreq.toNat ∧
    (let s : State := { State.reset with width := 32, buflo := 0xfffffff0, bufhi := 0xffffffff, lenlo := 0x11 }
     s.busy = false ∧ s.fatal = false ∧
     2 ^ 64 < (s.bufhi.toNat * 2 ^ 32 + s.buflo.toNat) + (s.lenhi.toNat * 2 ^ 32 + s.lenlo.toNat)) := by
  decide +kernel

theorem witness_HashOverADeviceIsRefused :
    let s : State := { State.reset with width := 32, lenlo := 16, devices := [⟨15, 1⟩] }
    s.busy = false ∧ s.fatal = false ∧ s.hashValid = true ∧ ⟨15, 1⟩ ∈ s.devices ∧ 15 ≤ 15 ∧ 15 < 15 + 1 ∧
    s.buf.toNat ≤ 15 ∧ 15 < s.buf.toNat + s.len.toNat := by decide +kernel

theorem witness_CommandsAreDroppedWhileBusyOrFatal :
    (inPhase 3 32).busy = true ∧
    ({ State.reset with fatal := true } : State).busy = false ∧
    ({ State.reset with fatal := true } : State).fatal = true := by decide +kernel

theorem witness_IllegalCommandSetsResultOnly :
    let s : State := { State.reset with script := [.write 0x000 4 0x110] }
    s.script = .write 0x000 4 0x110 :: [] ∧ s.busy = false ∧ s.fatal = false ∧
    (0x110 : Word) ≠ 1 ∧ (0x110 : Word) ≠ 2 ∧ (0x110 : Word) ≠ 0x10 := by decide +kernel

theorem witness_StepIssuesTheDecodedCommand :
    issued.script = .write 0x000 4 0x10 :: [] ∧ decode (.command 0x10) = .ok .hash := ⟨rfl, rfl⟩

theorem witness_StepRunsTheDecodedPhase :
    (inPhase 3 32).engineNext [] ∧ (inPhase 3 32).result.toNat ≤ 5 ∧
    decode (.phase (inPhase 3 32).phase) = .ok .consume := ⟨by decide +kernel, by decide +kernel, rfl⟩

/-- Both clauses, at the boundary codes: 0 and 15, RESULT 5; RESULT 6, PHASE 9 and 14. -/
theorem witness_EngineTurnWithoutAPhaseStep :
    State.reset.engineNext [] ∧
    (let s : State := { State.reset with fatal := true, phase := 15, result := 5 }
     s.engineNext [] ∧ s.result.toNat ≤ 5 ∧ s.phase = 15) ∧
    6 ≤ ({ State.reset with result := 6 } : State).result.toNat ∧
    9 ≤ (inPhase 9 32).phase.toNat ∧ (inPhase 14 32).phase.toNat ≤ 14 := by decide +kernel

theorem witness_RegisterWriteWhileBusySetsPerr :
    let s : State := { inPhase 3 32 with script := [.write 0x008 4 5] }
    s.script = .write 0x008 4 5 :: [] ∧ 0x008 % 4 = 0 ∧ s.busy = true := by decide +kernel

theorem witness_RegisterWritesStoreTheValue :
    let s : State := { State.reset with script := [.write 0x028 4 5] }
    s.script = .write 0x028 4 5 :: [] ∧ s.busy = false := by decide +kernel

/-- A write at the last reserved offset before DIGEST and a read of the first one after it. -/
theorem witness_ReadOnlyAndReservedOffsetsIgnoreWrites :
    (let s : State := { State.reset with script := [.write 0x07C 4 5] }
     s.script = .write 0x07C 4 5 :: [] ∧ s.busy = false ∧ 0x07C % 4 = 0 ∧ 0x030 ≤ 0x07C) ∧
    (let s : State := { State.reset with script := [.read 0x100 4] }
     s.script = .read 0x100 4 :: [] ∧ 0x100 % 4 = 0 ∧ 0x100 ≤ 0x100) := by decide +kernel

theorem witness_RegisterReadsReturnTheMap :
    let s : State := { State.reset with script := [.read 0x0FC 4] }
    s.script = .read 0x0FC 4 :: [] ∧ 0x0FC % 4 = 0 ∧ 0x0FC = 0x080 + 4 * 31 := by decide +kernel

theorem witness_MisshapenAccessIsRefused :
    let s : State := { State.reset with script := [.write 0x006 4 0] }
    s.script = .write 0x006 4 0 :: [] ∧ 0x006 % 4 ≠ 0 := by decide +kernel

theorem witness_ResetGivesTheTable :
    ({ inPhase 3 32 with script := [.rst] } : State).script = .rst :: [] := rfl

/-- For the statements about every step: steps that do answer next, of the engine and of the host. -/
theorem witness_step_answers_next :
    (nextOf (step (inPhase 8 64))).isSome = true ∧ (inPhase 8 64).notReset ∧
    (nextOf (step issued)).isSome = true ∧ issued.notReset := by decide +kernel

theorem witness_InstructionsWriteNoMemoryAndNoOperand :
    (nextOf (exec .drain draining)).isSome = true := by decide +kernel

/-- A store of the host that changes a byte. -/
theorem witness_ThePlatformIsConstant :
    (nextOf (step { issued with script := [.store 0x2003 7] })).map (fun t => t.mem.read 0x2003) =
      some (some 7#8) := by decide +kernel

/-- PERR, and each cause of FATAL: a reserved PHASE, an illegal LWIDTH, COUNT at EMIT, a reserved RESULT. -/
theorem witness_StickyFlagsClearOnlyByReset :
    (nextOf (step { inPhase 3 32 with script := [.write 0x000 4 1] })).map (fun t => t.perr) = some true ∧
    (nextOf (step (inPhase 9 32))).map (fun t => t.fatal) = some true ∧
    (nextOf (step (inPhase 1 48))).map (fun t => t.fatal) = some true ∧
    (nextOf (step (inPhase 8 32))).map (fun t => t.fatal) = some true ∧
    (nextOf (step { State.reset with result := 6 })).map (fun t => t.fatal) = some true := by decide +kernel

theorem witness_ResIsWrittenByMixAndMixcOnly :
    let s : State := { State.reset with opa := 1, script := [.write 0x000 4 1] }
    s.notReset ∧ (nextOf (step s)).map (fun t => decide (t.res ≠ s.res)) = some true := by decide +kernel

theorem consistent_issued : Consistent issued where
  memory := by decide +kernel
  result := by decide
  phase := by decide
  notFatal := rfl
  busy := by decide +kernel
  inProgress := by decide
  noDigest := fun _ => rfl
  latched := by decide
  aligned := by decide +kernel
  progress := by decide
  start := fun _ => rfl
  consuming := by decide +kernel
  draining := by decide +kernel
  consumed := by decide +kernel
  halving := by decide +kernel
  emitting := by decide +kernel

theorem consistent_oneBlock : Consistent oneBlock where
  memory := testMemory_wf 0x8000 256 (by decide)
  result := by decide
  phase := by decide
  notFatal := rfl
  busy := by decide +kernel
  inProgress := by decide
  noDigest := fun _ => rfl
  latched := fun _ => by decide +kernel
  aligned := by decide +kernel
  progress := fun _ => by decide +kernel
  start := fun _ => rfl
  consuming := fun _ => by decide +kernel
  draining := by decide +kernel
  consumed := by decide +kernel
  halving := by decide +kernel
  emitting := by decide +kernel

theorem consistent_draining : Consistent draining where
  memory := by decide +kernel
  result := by decide
  phase := by decide
  notFatal := rfl
  busy := by decide +kernel
  inProgress := by decide
  noDigest := fun _ => rfl
  latched := fun _ => by decide +kernel
  aligned := by decide +kernel
  progress := fun _ => by decide +kernel
  start := fun _ => rfl
  consuming := by decide +kernel
  draining := fun _ => by decide +kernel
  consumed := by decide +kernel
  halving := by decide +kernel
  emitting := by decide +kernel

/-- DRAINING with no backed byte left in the tail. -/
def drainingUnbacked : State := { draining with mem := [] }

theorem consistent_draining_unbacked : Consistent drainingUnbacked where
  memory := by decide +kernel
  result := by decide
  phase := by decide
  notFatal := rfl
  busy := by decide +kernel
  inProgress := by decide
  noDigest := fun _ => rfl
  latched := fun _ => by decide +kernel
  aligned := by decide +kernel
  progress := fun _ => by decide +kernel
  start := fun _ => rfl
  consuming := by decide +kernel
  draining := fun _ => by decide +kernel
  consumed := by decide +kernel
  halving := by decide +kernel
  emitting := by decide +kernel

/-- EMIT at width 64. -/
def emitting : State := { inPhase 8 64 with p := provisional, count := 2 }

theorem consistent_emitting : Consistent emitting where
  memory := by decide +kernel
  result := by decide
  phase := by decide
  notFatal := rfl
  busy := by decide +kernel
  inProgress := by decide
  noDigest := fun _ => rfl
  latched := fun _ => by decide +kernel
  aligned := by decide +kernel
  progress := fun _ => by decide +kernel
  start := fun _ => rfl
  consuming := by decide +kernel
  draining := by decide +kernel
  consumed := fun _ => rfl
  halving := by decide +kernel
  emitting := fun _ => by decide +kernel

/-- A consistent state with a digest, and the CMD write of the HASH that discards it. -/
def withDigest : State := { issued with dvalid := true, result := 1, digest := provisional }

theorem consistent_withDigest : Consistent withDigest where
  memory := by decide +kernel
  result := by decide
  phase := by decide
  notFatal := rfl
  busy := by decide +kernel
  inProgress := by decide
  noDigest := fun h => nomatch h
  latched := by decide
  aligned := by decide +kernel
  progress := by decide
  start := fun _ => rfl
  consuming := by decide +kernel
  draining := by decide +kernel
  consumed := by decide +kernel
  halving := by decide +kernel
  emitting := by decide +kernel

theorem witness_TheDigestComesFromEmitOnly :
    (emitting.notReset ∧ (nextOf (step emitting)).map (fun t => t.dvalid) = some true) ∧
    (withDigest.notReset ∧ (nextOf (step withDigest)).map (fun t => t.dvalid) = some false) := by
  decide +kernel

theorem witness_BusyFollowsTheHash :
    (nextOf (step issued)).map (fun t => t.busy) = some true ∧
    (nextOf (step emitting)).map (fun t => t.busy) = some false ∧
    (nextOf (step drainingUnbacked)).map (fun t => t.busy) = some false ∧
    (nextOf (step (inPhase 9 32))).map (fun t => t.busy) = some false := by decide +kernel

/-- Auto with all capabilities but the widest, and a pinned tier. -/
theorem witness_SelectTierIsTheWidestCapableAligned :
    (let c : Capabilities := ⟨true, true, false⟩
     2 ≤ 3 ∧ c.capable 2 = true ∧ ∀ t, t ≤ 3 → c.capable t = true → t ≤ 2) ∧ 3 + 1 = 4 := by decide +kernel

/-- For SeltierRecordsTheTier, SeedxFillsTheLanes, DiffuseMixesTheLengthAndDiffuses, FoldGivesTheProvisionalWords. -/
theorem witness_contractHolds :
    (inPhase 1 32).contractHolds = true ∧ (inPhase 2 1024).contractHolds = true ∧
    (inPhase 5 256).contractHolds = true ∧ (inPhase 6 512).contractHolds = true := by decide +kernel

theorem witness_RoundHasTheClosedForm : 16 ≤ 64 ∧ 15 < 16 ∧ 16 ≤ 16 := by decide

theorem witness_TiersComputeTheSameRound : legalWidth 512 = true := by decide

theorem witness_BlockWordsAreLittleEndian : 4 * 0 + 4 ≤ ([1, 2, 3, 4] : List Byte).length := by decide

theorem witness_ConsumeMixesOneBlock :
    oneBlock.contractHolds = true ∧ oneBlock.bs ≤ oneBlock.remain.toNat ∧
    backedRun oneBlock.mem (oneBlock.lbuf.toNat + oneBlock.cursor.toNat) oneBlock.bs = true :=
  ⟨by decide +kernel, by decide +kernel, backedRun_testMemory 0x8000 256⟩

theorem witness_DrainPadsAndMixesOnce :
    draining.contractHolds = true ∧ draining.remain.toNat < draining.bs ∧
    backedRun draining.mem (draining.lbuf.toNat + draining.cursor.toNat) draining.remain.toNat = true := by
  decide +kernel

/-- One block of which no byte is backed. -/
def oneBlockUnbacked : State := { oneBlock with mem := [] }

theorem consistent_oneBlock_unbacked : Consistent oneBlockUnbacked where
  memory := by decide +kernel
  result := by decide
  phase := by decide
  notFatal := rfl
  busy := by decide +kernel
  inProgress := by decide
  noDigest := fun _ => rfl
  latched := fun _ => by decide +kernel
  aligned := by decide +kernel
  progress := fun _ => by decide +kernel
  start := fun _ => rfl
  consuming := fun _ => by decide +kernel
  draining := by decide +kernel
  consumed := by decide +kernel
  halving := by decide +kernel
  emitting := by decide +kernel

/-- The last byte of the block in CONSUME, the last byte of the tail in DRAIN. -/
theorem witness_BusErrorEndsTheHash :
    (oneBlockUnbacked.phase = phConsuming ∧ 255 < oneBlockUnbacked.bs ∧
      oneBlockUnbacked.mem.backed
        (oneBlockUnbacked.lbuf.toNat + oneBlockUnbacked.cursor.toNat + 255) = false) ∧
    (drainingUnbacked.phase = phDraining ∧ 2 < drainingUnbacked.remain.toNat ∧
      drainingUnbacked.mem.backed
        (drainingUnbacked.lbuf.toNat + drainingUnbacked.cursor.toNat + 2) = false) := by decide +kernel

/-- One block in the tier Width512, whose accesses are aligned. -/
def oneBlockVector : State := { oneBlock with tier := 3 }

theorem consistent_oneBlock_vector : Consistent oneBlockVector :=
  have h := consistent_oneBlock
  ⟨h.memory, h.result, h.phase, h.notFatal, h.busy, h.inProgress, h.noDigest, h.latched, by decide +kernel,
    h.progress, h.start, h.consuming, h.draining, h.consumed, h.halving, h.emitting⟩

/-- The clause of CONSUME, in a vector tier with the whole block backed. -/
theorem witness_PortAccessesFollowTheTier_vector :
    Consistent oneBlockVector ∧ oneBlockVector.phase = phConsuming ∧ oneBlockVector.tier ≠ 0 ∧
    backedRun oneBlockVector.mem (oneBlockVector.lbuf.toNat + oneBlockVector.cursor.toNat) oneBlockVector.bs = true ∧
    (nextOf (exec .consume oneBlockVector)).isSome = true := by
  refine ⟨consistent_oneBlock_vector, rfl, by decide, backedRun_testMemory 0x8000 256, ?_⟩
  obtain ⟨bytes, hb⟩ := readBuffer_of_backed oneBlockVector 0x8000 256 (backedRun_testMemory 0x8000 256)
  have hc : exec .consume oneBlockVector = .next (oneBlockVector.consumeBlock bytes) := by
    have : oneBlockVector.readBuffer oneBlockVector.readAddress oneBlockVector.bs = .data bytes := hb
    simp only [exec, execConsume, this]
    rfl
  rw [hc]
  rfl

/-- The clause of DRAIN, with the whole tail backed. -/
theorem witness_PortAccessesFollowTheTier_tail :
    Consistent draining ∧ draining.phase = phDraining ∧
    backedRun draining.mem (draining.lbuf.toNat + draining.cursor.toNat) draining.remain.toNat = true ∧
    (nextOf (exec .drain draining)).map (fun t => t.reads) = some [⟨0x2003, 1⟩, ⟨0x2004, 1⟩, ⟨0x2005, 1⟩] :=
  ⟨consistent_draining, rfl, by decide +kernel, by decide +kernel⟩

theorem witness_DiffusionReadsTheLaneWordsOnly :
    ∀ l i, 1 ≤ l → l ≤ 4 → i < 16 → zeroLanes.word l i = zeroLanes.word l i := fun _ _ _ _ _ => rfl

theorem witness_FoldIndexPatternWrittenOut : (128 = 32 ∨ 128 = 64 ∨ 128 = 128) ∧ 3 < 4 := by decide

theorem witness_HalveLeavesTheDigestWords :
    let s : State := { inPhase 7 32 with count := 4 }
    s.contractHolds = true ∧ s.count = max (s.lwidth.toNat / 32) 4 := by decide +kernel

theorem witness_EmitPublishesTheDigest :
    emitting.contractHolds = true ∧ emitting.count = emitting.lwidth.toNat / 32 := by decide +kernel

theorem witness_BrokenContractIsFatal :
    legalWidth (inPhase 3 48).lwidth = false ∧ 5 ≤ ({ inPhase 1 32 with ltier := 5 } : State).ltier.toNat ∧
    (inPhase 8 64).count ≠ (inPhase 8 64).lwidth.toNat / 32 := by decide +kernel

theorem witness_OnlyResetLeavesTheFatalState :
    let s : State := { State.reset with fatal := true, phase := 15, result := 5, script := [.write 0x000 4 1] }
    s.fatal = true ∧ s.busy = false ∧ s.phase = 15 ∧ s.result = 5 ∧ s.notReset ∧
    (nextOf (step s)).isSome = true := by decide +kernel

theorem witness_EveryStepKeepsConsistency :
    Consistent emitting ∧ (nextOf (step emitting)).isSome = true := ⟨consistent_emitting, by decide +kernel⟩

theorem witness_TheFatalStateIsUnreachable :
    Consistent emitting ∧ (nextOf (Sys2Proof.core.run 2 emitting)).isSome = true :=
  ⟨consistent_emitting, by decide +kernel⟩

theorem witness_ARacedReadReturnsOldOrNew :
    oneBlock.busy = true ∧ oneBlock.mem.read 0x8001 = some 1 ∧ 0x8002 ≠ 0x8001 := by decide +kernel

/-- The memory may differ outside the buffer: a further byte, and the byte that no one may read
(95_test_vectors.md P3). -/
theorem witness_PhaseStepsIgnoreMemoryOutsideTheBuffer :
    Consistent draining ∧ decode (.phase draining.phase) = .ok .drain ∧
    (∀ a, draining.lbuf.toNat ≤ a → a < draining.lbuf.toNat + draining.llen.toNat →
      Memory.read [(5, 9), (0x2003, 0x61), (0x2004, 0x62), (0x2005, 0x63)] a = draining.mem.read a) ∧
    (nextOf (exec .drain draining)).isSome = true := by
  refine ⟨consistent_draining, rfl, fun a h1 h2 => ?_, by decide +kernel⟩
  have hb : draining.lbuf.toNat = 0x2003 := rfl
  have hl : draining.llen.toNat = 3 := rfl
  have : a = 0x2003 ∨ a = 0x2004 ∨ a = 0x2005 := by omega
  rcases this with rfl | rfl | rfl <;> rfl

theorem witness_RotlMovesEveryBit : 0 < 11 ∧ 11 < 32 ∧ 31 < 32 := by decide

/-- `mix` and `mixc`. -/
theorem witness_PseudoInstructionsReadTheirResults_mix :
    (let s : State := { State.reset with script := mixScript 3 4 }
     s.busy = false ∧ s.fatal = false ∧ s.script = mixScript 3 4) ∧
    (let s : State := { State.reset with script := mixcScript 3 }
     s.busy = false ∧ s.fatal = false ∧ s.script = mixcScript 3) := ⟨⟨rfl, rfl, rfl⟩, rfl, rfl, rfl⟩

/-- An idle block with the script of a `hash` of three bytes at 0x2003, of which `mem` backs some. -/
def hashing (width : Word) (mem : Memory) : State :=
  { State.reset with mem := mem, script := hashScript 0x2003 3 0xfd4c799d width 4 }

/-- `hash`: rejected for its width; accepted with its buffer backed; accepted with its last byte not backed. -/
theorem witness_PseudoInstructionsReadTheirResults_hash :
    let c := fun (s : State) (w : Word) => s.configured 0x2003 3 0xfd4c799d w 4
    let whole : Memory := [(0x2003, 0x61), (0x2004, 0x62), (0x2005, 0x63)]
    let part : Memory := [(0x2003, 0x61), (0x2004, 0x62)]
    (hashing 48 []).busy = false ∧ (hashing 48 []).fatal = false ∧
    (c (hashing 48 []) 48).hashValid = false ∧ (c (hashing 64 whole) 64).hashValid = true ∧
    (c (hashing 64 whole) 64).deviceInBuffer = false ∧ backedRun whole 0x2003 3 = true ∧
    backedRun part 0x2003 3 = false := by decide +kernel

/-- `wait` is over at the first read with BUSY = 0, and stays, after a turn of the engine, while BUSY = 1
(30_encoding.md R98). -/
theorem test_wait_repeats :
    (nextOf (step { State.reset with script := [.wait] })).map (fun t => (t.script, t.rdata)) =
      some ([], some 0#32) ∧
    (nextOf (step { inPhase 5 32 with script := [.wait] })).map (fun t => (t.script, t.rdata)) =
      some ([.engine, .wait], some 0x5001#32) := by decide +kernel

/-- The end of `hash` reads the digest after RESULT = 1 and returns none after ERR_BUS (30_encoding.md R98). -/
theorem test_collect :
    let s : State := { State.reset with digest := provisional, dvalid := true, rdata := some 0x12 }
    collectDigest s 64 = some [entry provisional 0, entry provisional 1] ∧
    collectDigest { s with rdata := some 0x40 } 64 = none := by decide +kernel

end Sys2Proof.Tests
end

section
/-!
PROOFS. A word rotation bit by bit, and what no step changes of the platform.
-/

namespace Sys2Proof.Machine

/-! ### Rotation -/

/-- Bit `j` of a rotation: the low `r` bits come from the top of the word, the others move up (00_scope.md R13). -/
theorem getLsbD_rotl (x : Word) {r j : Nat} (hr : r < 32) (hj : j < 32) :
    (rotl x r).getLsbD j = if j < r then x.getLsbD (32 - r + j) else x.getLsbD (j - r) := by
  by_cases h : j < r
  · simp [rotl, h, hj]
  · have high : x.getLsbD (32 - r + j) = false := BitVec.getLsbD_of_ge x _ (by omega)
    simp [rotl, h, hj, high, BitVec.getLsbD_eq_getElem (show j - r < 32 by omega)]

/-- Settles O58: bit `i` stays inside the word (`i + r < 32`) or wraps around to `i + r - 32`. -/
theorem rotlMovesEveryBit : Obligations.RotlMovesEveryBit := by
  intro x r i _ hr hi
  rw [getLsbD_rotl x hr (Nat.mod_lt _ (by decide))]
  by_cases hwrap : i + r < 32
  · have hmod : (i + r) % 32 = i + r := Nat.mod_eq_of_lt hwrap
    rw [hmod, if_neg (by omega), Nat.add_sub_cancel]
  · have hmod : (i + r) % 32 = i + r - 32 := by omega
    rw [hmod, if_pos (by omega), show 32 - r + (i + r - 32) = i by omega]

/-! ### The platform -/

/-- If the result is a next state, its memory and its device regions are those of `s`. -/
def KeepsPlatform (s : State) (r : Result) : Prop :=
  ∀ t, r = .next t → t.mem = s.mem ∧ t.devices = s.devices

theorem keepsPlatform_next {s t : State} (hmem : t.mem = s.mem) (hdev : t.devices = s.devices) :
    KeepsPlatform s (.next t) := by
  rintro _ ⟨⟩
  exact ⟨hmem, hdev⟩

theorem keepsPlatform_refused (s : State) (r : Refusal) : KeepsPlatform s (.refused r) := by
  rintro _ ⟨⟩

theorem keepsPlatform_commandStep {s : State} {effect : Result} (h : KeepsPlatform s effect) :
    KeepsPlatform s (commandStep s effect) := by
  rcases commandStep_cases s effect with ⟨_, e⟩ | ⟨_, _, e⟩ | ⟨_, _, e⟩ <;> rw [e]
  · exact keepsPlatform_next rfl rfl
  · exact keepsPlatform_next rfl rfl
  · exact h

theorem keepsPlatform_phaseStep {s : State} {effect : Result} (h : KeepsPlatform s effect) :
    KeepsPlatform s (phaseStep s effect) := by
  rcases phaseStep_cases s effect with ⟨_, e⟩ | ⟨_, e⟩ <;> rw [e]
  · exact keepsPlatform_next rfl rfl
  · exact h

/-- No instruction writes the buffer memory (20_memory.md R61). -/
theorem keepsPlatform_exec (i : Instr) (s : State) : KeepsPlatform s (exec i s) := by
  cases i with
  | mix => exact keepsPlatform_commandStep (keepsPlatform_next rfl rfl)
  | mixc => exact keepsPlatform_commandStep (keepsPlatform_next rfl rfl)
  | hash =>
    refine keepsPlatform_commandStep ?_
    split
    · split
      · exact keepsPlatform_refused s _
      · exact keepsPlatform_next rfl rfl
    · exact keepsPlatform_next rfl rfl
  | seltier => exact keepsPlatform_phaseStep (keepsPlatform_next rfl rfl)
  | seedx => exact keepsPlatform_phaseStep (keepsPlatform_next rfl rfl)
  | consume =>
    refine keepsPlatform_phaseStep ?_
    split <;> exact keepsPlatform_next rfl rfl
  | drain =>
    refine keepsPlatform_phaseStep ?_
    split <;> exact keepsPlatform_next rfl rfl
  | diffuse => exact keepsPlatform_phaseStep (keepsPlatform_next rfl rfl)
  | fold => exact keepsPlatform_phaseStep (keepsPlatform_next rfl rfl)
  | halve => exact keepsPlatform_phaseStep (keepsPlatform_next rfl rfl)
  | emit =>
    refine keepsPlatform_phaseStep ?_
    split <;> exact keepsPlatform_next rfl rfl

theorem keepsPlatform_engineTurn (s : State) : KeepsPlatform s (engineTurn s) := by
  rcases engineTurn_cases s with e | e | ⟨i, _, _, e⟩ <;> rw [e]
  · exact keepsPlatform_next rfl rfl
  · exact keepsPlatform_next rfl rfl
  · exact keepsPlatform_exec i s

theorem keepsPlatform_writeCmd (s : State) (c : Word) : KeepsPlatform s (writeCmd s c) := by
  rcases writeCmd_cases s c with ⟨_, e⟩ | ⟨_, _, e⟩ | ⟨_, _, _, e⟩ | ⟨_, _, i, _, e⟩ <;> rw [e]
  · exact keepsPlatform_next rfl rfl
  · exact keepsPlatform_next rfl rfl
  · exact keepsPlatform_next rfl rfl
  · exact keepsPlatform_exec i s

theorem keepsPlatform_writeReg (s : State) (r : Reg) (v : Word) : KeepsPlatform s (writeReg s r v) := by
  rcases writeReg_cases s r v with ⟨_, e⟩ | ⟨_, _, e⟩ | ⟨_, _, t, e, ht⟩ <;> rw [e]
  · exact keepsPlatform_next rfl rfl
  · exact keepsPlatform_writeCmd s v
  · exact keepsPlatform_next (by rw [ht]) (by rw [ht])

/-- Of the actions at the block's boundary only a store of the host can touch the platform. -/
theorem keepsPlatform_performEvent (s : State) {e : Event} (he : ∀ a v, e ≠ .store a v) :
    KeepsPlatform s (performEvent s e) := by
  cases e with
  | engine => exact keepsPlatform_engineTurn s
  | write offset size value =>
    simp only [performEvent]
    split
    · exact keepsPlatform_writeReg s _ value
    · exact keepsPlatform_refused s _
  | read offset size =>
    simp only [performEvent]
    split
    · exact keepsPlatform_next rfl rfl
    · exact keepsPlatform_refused s _
  | wait => exact keepsPlatform_next rfl rfl
  | collect width => exact keepsPlatform_next rfl rfl
  | store a v => exact absurd rfl (he a v)
  | rst => exact keepsPlatform_next rfl rfl

/-- A write to an address that is not backed is dropped (notes/assumptions/5.md). -/
theorem write_of_read_none {m : Memory} {a : Nat} (v : Byte) (h : m.read a = none) : m.write a v = m := by
  induction m with
  | nil => rfl
  | cons c m ih =>
    obtain ⟨k, b⟩ := c
    have hk : a ≠ k := by
      rintro rfl
      simp [read_cons] at h
    rw [read_cons, if_neg hk] at h
    simp [Memory.write, hk, ih h]

theorem storeByte_mem (s : State) (a : Nat) (v : Byte) : (s.storeByte a v).mem = s.mem.write a v := by
  rcases storeByte_cases s a v with ⟨hnone, e⟩ | ⟨_, _, e⟩ <;> rw [e]
  exact (write_of_read_none v hnone).symm

/-- A step is a store of the host, or it keeps the memory and the device regions. -/
theorem step_store_or_keepsPlatform (s : State) :
    (∃ a v rest, s.script = .store a v :: rest ∧
      step s = .next (State.storeByte { s with script := rest } a v)) ∨
    KeepsPlatform s (step s) := by
  rcases step_cases s with ⟨_, e⟩ | ⟨event, rest, hscript, e⟩
  · exact .inr (e ▸ keepsPlatform_engineTurn s)
  · by_cases hstore : ∃ a v, event = .store a v
    · obtain ⟨a, v, rfl⟩ := hstore
      exact .inl ⟨a, v, rest, hscript, e⟩
    · refine .inr ?_
      rw [e]
      exact keepsPlatform_performEvent { s with script := rest } fun a v hev => hstore ⟨a, v, hev⟩

/-- Settles O22: a store keeps the backed addresses and changes at most the byte it names; every other step keeps
the whole platform. -/
theorem thePlatformIsConstant : Obligations.ThePlatformIsConstant := by
  intro s t hstep
  rcases step_store_or_keepsPlatform s with ⟨a, v, rest, hscript, e⟩ | hkeep
  · obtain rfl : State.storeByte { s with script := rest } a v = t := by
      rw [e] at hstep
      exact Host.Outcome.next.inj hstep
    have hmem := storeByte_mem { s with script := rest } a v
    refine ⟨by rw [storeByte_frame], fun x => by rw [hmem, backed_write], fun x hne => ?_⟩
    obtain rfl : x = a := by
      by_contra hx
      exact hne (by rw [hmem, read_write_of_ne _ _ hx])
    refine ⟨v, rest, hscript, ?_⟩
    rw [hmem, read_write_same] at hne ⊢
    cases hread : s.mem.read x with
    | none => simp [hread] at hne
    | some old => rfl
  · obtain ⟨hmem, hdev⟩ := hkeep t hstep
    exact ⟨hdev, fun x => by rw [hmem], fun x hne => absurd (by rw [hmem]) hne⟩

end Sys2Proof.Machine
end

section
/-!
PROOFS. The data path of HASH sees the first words of each table only: what an operation computes below a bound is
fixed by its operands below that bound (10_state.md R22). And every tier computes the scalar round (43_mixing_round.md
R156).
-/

namespace Sys2Proof.Machine

/-! ### The round of a tier is the scalar round -/

/-- The next vector group extends a sub-step on the first `k` words by `g` words. -/
theorem vectorSubstep_laneSubstep (g k : Nat) (slice : Nat → Word) (a b : Lane) :
    vectorSubstep g k slice (laneSubstep k slice a b) = laneSubstep (k + g) slice a b := by
  refine Prod.ext (entry_ext fun i hi => ?_) (entry_ext fun i hi => ?_) <;>
  · by_cases hlow : i < k
    · simp [vectorSubstep, laneSubstep, hi, hlow, show i < k + g by omega]
    · by_cases hin : i < k + g
      · simp [vectorSubstep, laneSubstep, hi, hlow, hin, Nat.le_of_not_lt hlow]
      · simp [vectorSubstep, laneSubstep, hi, hlow, hin]

/-- The first `q` vector groups do the sub-step on the first `q * g` words (43_mixing_round.md R155). -/
theorem foldl_vectorSubstep (g q : Nat) (slice : Nat → Word) (a b : Lane) :
    (List.range q).foldl (fun ab j => vectorSubstep g (j * g) slice ab) (a, b) =
      laneSubstep (q * g) slice a b := by
  induction q with
  | zero =>
    refine Prod.ext (entry_ext fun i _ => ?_) (entry_ext fun i _ => ?_) <;> simp [laneSubstep]
  | succ q ih =>
    rw [List.range_succ, List.foldl_append, ih, Nat.succ_mul]
    exact vectorSubstep_laneSubstep g (q * g) slice a b

theorem tierRound_eq_scalarRound {g n : Nat} (hg : g ∣ n) (w : List Word) (h : Lanes) :
    tierRound g n w h = scalarRound n w h := by
  have hsub : tierSubstep g n = laneSubstep n := by
    funext slice a b
    rw [tierSubstep, foldl_vectorSubstep, Nat.div_mul_cancel hg]
  rw [tierRound, scalarRound, hsub]

/-- At a legal width the lanes are whole vectors of every tier (43_mixing_round.md R155). -/
theorem tierWords_dvd_laneWords (t : BitVec 2) {width : Word} (hw : legalWidth width = true) :
    tierWords t ∣ laneWords width.toNat := by
  obtain ⟨hn, -⟩ := sizes_of_legalWidth hw
  revert t
  rcases hn with e | e | e <;> rw [e] <;> decide

/-! ### Tables that agree below a bound -/

/-- The first `k` entries of two vectors are equal. -/
def AgreeBelow {w n : Nat} (k : Nat) (u v : Vector (BitVec w) n) : Prop :=
  ∀ i, i < k → entry u i = entry v i

/-- The first `n` words of all four lanes are equal: the words that a command with N = `n` reads (R22). -/
def LanesAgree (n : Nat) (g h : Lanes) : Prop :=
  ∀ l i, 1 ≤ l → l ≤ 4 → i < n → g.word l i = h.word l i

theorem lanesAgree_iff {n : Nat} {g h : Lanes} : LanesAgree n g h ↔
    AgreeBelow n g.h1 h.h1 ∧ AgreeBelow n g.h2 h.h2 ∧ AgreeBelow n g.h3 h.h3 ∧ AgreeBelow n g.h4 h.h4 := by
  constructor
  · intro e
    exact ⟨fun i => e 1 i (by decide) (by decide), fun i => e 2 i (by decide) (by decide),
      fun i => e 3 i (by decide) (by decide), fun i => e 4 i (by decide) (by decide)⟩
  · rintro ⟨e1, e2, e3, e4⟩ l i hl hl' hi
    obtain rfl | rfl | rfl | rfl : l = 1 ∨ l = 2 ∨ l = 3 ∨ l = 4 := by omega
    · exact e1 i hi
    · exact e2 i hi
    · exact e3 i hi
    · exact e4 i hi

/-- Updating the first `n` words with values that agree there gives lanes that agree there. -/
theorem lanesAgree_lanesWith {n : Nat} {f f' : Nat → Nat → Word} {g h : Lanes}
    (hf : ∀ l i, 1 ≤ l → l ≤ 4 → i < n → f l i = f' l i) (hgh : LanesAgree n g h) :
    LanesAgree n (lanesWith n f g) (lanesWith n f' h) := by
  intro l i hl hl' hi
  rw [word_lanesWith n f g ⟨hl, hl'⟩, word_lanesWith n f' h ⟨hl, hl'⟩, hf l i hl hl' hi, hgh l i hl hl' hi]

/-! ### Seed expansion and the blocks -/

/-- Seed expansion writes all the words that the command reads (42_seed_expansion.md R141). -/
theorem lanesAgree_seedLanes {n : Nat} (hn : n ≤ 64) (c seed : Word) (g h : Lanes) :
    LanesAgree n (seedLanes c seed n g) (seedLanes c seed n h) := by
  intro l i hl hl' hi
  rw [seedLanes, seedLanes, word_lanesWith _ _ g ⟨hl, hl'⟩, word_lanesWith _ _ h ⟨hl, hl'⟩,
    if_pos ⟨hi, by omega⟩, if_pos ⟨hi, by omega⟩]

theorem agreeBelow_laneSubstep {n : Nat} (slice : Nat → Word) {a a' b b' : Lane}
    (ha : AgreeBelow n a a') (hb : AgreeBelow n b b') :
    AgreeBelow n (laneSubstep n slice a b).1 (laneSubstep n slice a' b').1 ∧
    AgreeBelow n (laneSubstep n slice a b).2 (laneSubstep n slice a' b').2 := by
  constructor <;>
  · intro i hi
    simp [laneSubstep, ha i hi, hb i hi]

theorem lanesAgree_scalarRound {n : Nat} (w : List Word) {g h : Lanes} (hgh : LanesAgree n g h) :
    LanesAgree n (scalarRound n w g) (scalarRound n w h) := by
  obtain ⟨e1, e2, e3, e4⟩ := lanesAgree_iff.1 hgh
  have r1 := agreeBelow_laneSubstep (blockSlice n w 0) e1 e2
  have r2 := agreeBelow_laneSubstep (blockSlice n w 1) r1.2 e3
  have r3 := agreeBelow_laneSubstep (blockSlice n w 2) r2.2 e4
  have r4 := agreeBelow_laneSubstep (blockSlice n w 3) r3.2 r1.1
  exact lanesAgree_iff.2 ⟨r4.2, r2.1, r3.1, r4.1⟩

theorem lanesAgree_absorb {n : Nat} (bs k : Nat) (bytes : List Byte) {g h : Lanes} (hgh : LanesAgree n g h) :
    LanesAgree n (absorb n bs k bytes g) (absorb n bs k bytes h) := by
  induction k generalizing bytes g h with
  | zero => exact lanesAgree_scalarRound _ hgh
  | succ k ih => exact ih _ (lanesAgree_scalarRound _ hgh)

/-! ### The length mix and the diffusion passes -/

theorem lanesAgree_lenMix {n : Nat} (c : Word) (llen : Addr) {g h : Lanes} (hgh : LanesAgree n g h) :
    LanesAgree n (lenMix c n llen g) (lenMix c n llen h) :=
  lanesAgree_lanesWith (fun l i hl hl' hi => by rw [hgh l i hl hl' hi]) hgh

/-- A word of the lane file after one word is replaced. -/
theorem word_setWord (h : Lanes) (l i : Nat) (v : Word) {l' i' : Nat} (hl : 1 ≤ l' ∧ l' ≤ 4) :
    (h.setWord l i v).word l' i' = if (l' = l ∧ i' = i) ∧ i' < 64 then v else h.word l' i' := by
  rw [Lanes.setWord, word_lanesWith _ _ _ hl]
  by_cases h64 : i' < 64 <;> simp [h64]

theorem lanesAgree_setWord {n : Nat} (l i : Nat) (v : Word) {g h : Lanes} (hgh : LanesAgree n g h) :
    LanesAgree n (g.setWord l i v) (h.setWord l i v) := by
  intro l' i' hl hl' hi
  rw [word_setWord g l i v ⟨hl, hl'⟩, word_setWord h l i v ⟨hl, hl'⟩, hgh l' i' hl hl' hi]

/-- Two runs of a diffusion pass that differ in lane words with index ≥ N at most (45_finalizer.md R203 (a)). -/
structure DiffuseRun.Agree (n : Nat) (r r' : DiffuseRun) : Prop where
  lanes : LanesAgree n r.lanes r'.lanes
  temps : r.temps = r'.temps
  mixed : r.mixed = r'.mixed

namespace DiffuseRun.Agree

variable {n : Nat} {r r' : DiffuseRun}

theorem get_eq (a : Agree n r r') (slot : Slot) : r.get n slot = r'.get n slot := by
  cases slot with
  | word l i =>
    simp only [DiffuseRun.get]
    split
    · exact a.lanes _ _ (by omega) (by omega) ‹_›
    · rfl
  | temp k => simp only [DiffuseRun.get, a.temps]

theorem set (a : Agree n r r') (slot : Slot) (v : Word) : Agree n (r.set n slot v) (r'.set n slot v) := by
  cases slot with
  | word l i =>
    simp only [DiffuseRun.set]
    split
    · exact ⟨lanesAgree_setWord _ _ v a.lanes, a.temps, a.mixed⟩
    · exact a
  | temp k => exact ⟨a.lanes, congrArg ((k, v) :: ·) a.temps, a.mixed⟩

theorem op (a : Agree n r r') (c : Word) (o : DiffuseOp) : Agree n (r.op c n o) (r'.op c n o) := by
  cases o with
  | accumulate dst src =>
    simp only [DiffuseRun.op, a.get_eq]
    exact a.set dst _
  | copy dst src =>
    simp only [DiffuseRun.op, a.get_eq]
    exact a.set dst _
  | mixWord l i =>
    simp only [DiffuseRun.op, a.get_eq, a.mixed]
    split
    · exact a
    · have a' := a.set (.word l i) (mix1 c (r'.get n (.word l i)))
      exact ⟨a'.lanes, a'.temps, rfl⟩

theorem foldl_op (a : Agree n r r') (c : Word) (ops : List DiffuseOp) :
    Agree n (ops.foldl (fun r o => r.op c n o) r) (ops.foldl (fun r o => r.op c n o) r') := by
  induction ops generalizing r r' with
  | nil => exact a
  | cons o ops ih => exact ih (a.op c o)

theorem runPass (a : Agree n r r') (c : Word) (ops : List DiffuseOp) :
    Agree n (runPass c n ops r) (runPass c n ops r') := by
  have start : Agree n { r with mixed := [] } { r' with mixed := [] } := ⟨a.lanes, a.temps, rfl⟩
  have after := start.foldl_op c ops
  refine ⟨lanesAgree_lanesWith (fun l i hl hl' hi => ?_) after.lanes, after.temps, after.mixed⟩
  rw [after.mixed, after.lanes l i hl hl' hi]

end DiffuseRun.Agree

theorem lanesAgree_runProgram {n : Nat} (c : Word) (prog : DiffuseProgram) {g h : Lanes} (hgh : LanesAgree n g h) :
    LanesAgree n (runProgram c prog n g) (runProgram c prog n h) := by
  have start : DiffuseRun.Agree n ⟨g, [], []⟩ ⟨h, [], []⟩ := ⟨hgh, rfl, rfl⟩
  exact ((start.runPass c prog.pass1).runPass c prog.pass2).lanes

/-! ### The fold, the halvings and the digest -/

/-- The words of the chunks are words that the command reads (45_finalizer.md R207). -/
theorem chunkWord_eq_of_lanesAgree {width : Word} (hw : legalWidth width = true) {g h : Lanes}
    (hgh : LanesAgree (laneWords width.toNat) g h) {c j : Nat}
    (hc : c < foldWords width.toNat) (hj : j < chunkWords width.toNat) :
    chunkWord width.toNat g c j = chunkWord width.toNat h c j := by
  obtain ⟨-, -, -, -, -, hsize, -⟩ := sizes_of_legalWidth hw
  obtain ⟨q, hq⟩ : 4 ∣ foldWords width.toNat := by
    rcases (legalWidth_iff width).1 hw with rfl | rfl | rfl | rfl | rfl | rfl <;> decide
  have hq4 : foldWords width.toNat / 4 = q := by omega
  have hlane : c / q < 4 := Nat.div_lt_of_lt_mul (by omega)
  have hquarter : q * chunkWords width.toNat = laneWords width.toNat := by
    rw [hq, Nat.mul_assoc] at hsize
    omega
  have hindex : c % q * chunkWords width.toNat + j < laneWords width.toNat :=
    calc c % q * chunkWords width.toNat + j
        < (c % q + 1) * chunkWords width.toNat := by rw [Nat.succ_mul]; omega
      _ ≤ q * chunkWords width.toNat := Nat.mul_le_mul_right _ (Nat.mod_lt c (by omega))
      _ = laneWords width.toNat := hquarter
  unfold chunkWord
  rw [hq4]
  exact hgh _ _ (Nat.le_add_left 1 _) (Nat.succ_le_of_lt hlane) hindex

theorem foldWord_eq_of_lanesAgree {width : Word} (hw : legalWidth width = true) {g h : Lanes}
    (hgh : LanesAgree (laneWords width.toNat) g h) (i : Nat) :
    foldWord width.toNat g i = foldWord width.toNat h i := by
  obtain ⟨-, -, -, hpos, -⟩ := sizes_of_legalWidth hw
  refine List.foldl_ext _ _ _ fun acc j hj => ?_
  have hj : j < chunkWords width.toNat := List.mem_range.1 hj
  unfold foldTerm
  rw [chunkWord_eq_of_lanesAgree hw hgh (Nat.mod_lt _ (by omega)) hj,
    chunkWord_eq_of_lanesAgree hw hgh (Nat.mod_lt _ (by omega)) (by omega)]

/-- The fold writes all the provisional words that are live (45_finalizer.md R208). -/
theorem agreeBelow_foldInto {width : Word} (hw : legalWidth width = true) {g h : Lanes}
    (hgh : LanesAgree (laneWords width.toNat) g h) (p q : Vector Word 32) :
    AgreeBelow (foldWords width.toNat) (foldInto width.toNat g p) (foldInto width.toNat h q) := by
  intro i hi
  simp [foldInto, hi, foldWord_eq_of_lanesAgree hw hgh i]

theorem agreeBelow_halveOnce {count : Nat} {p q : Vector Word 32} (hpq : AgreeBelow count p q) :
    AgreeBelow count (halveOnce count p) (halveOnce count q) := by
  intro i hi
  simp [halveOnce, hpq i hi, hpq (count - 1 - i) (by omega)]

/-- HALVE on provisional words that agree where they are live (45_finalizer.md R212). -/
theorem halveLoop_agree (target fuel : Nat) {count : Nat} {p q : Vector Word 32} (hpq : AgreeBelow count p q) :
    (halveLoop target fuel count p).1 = (halveLoop target fuel count q).1 ∧
    AgreeBelow (halveLoop target fuel count p).1 (halveLoop target fuel count p).2
      (halveLoop target fuel count q).2 := by
  induction fuel generalizing count p q with
  | zero => exact ⟨rfl, hpq⟩
  | succ fuel ih =>
    unfold halveLoop
    split
    · exact ih fun i hi => agreeBelow_halveOnce hpq i (by omega)
    · exact ⟨rfl, hpq⟩

theorem digestOf_eq_of_agreeBelow {count : Nat} {p q : Vector Word 32} (hpq : AgreeBelow count p q) :
    digestOf count p = digestOf count q := by
  refine entry_ext fun k hk => ?_
  by_cases hlive : k < count
  · simp [digestOf, hlive, hpq k hlive]
  · simp [digestOf, hlive]

/-- The live provisional words, and their number, that FOLD and HALVE make of the lanes `h`, where the provisional
words were `p` before (45_finalizer.md R208, R212). -/
def foldedWords (width : Nat) (h : Lanes) (p : Vector Word 32) : Nat × Vector Word 32 :=
  halveLoop (digestWords width) (foldWords width) (foldWords width) (foldInto width h p)

/-- The registers that EMIT then publishes (45_finalizer.md R216). -/
def foldedDigest (width : Nat) (h : Lanes) (p : Vector Word 32) : Vector Word 32 :=
  digestOf (foldedWords width h p).1 (foldedWords width h p).2

theorem hashDigest_eq_foldedDigest (c : Word) (diffuse : Nat → Lanes → Lanes) (bytes : List Byte) (seed : Word)
    (width : Nat) :
    hashDigest c diffuse bytes seed width =
      foldedDigest width (hashLanes c diffuse bytes seed width) (Vector.replicate 32 0) := rfl

/-- The digest depends on the lane words with index < N only, and not on the old provisional words. -/
theorem foldedDigest_eq_of_lanesAgree {width : Word} (hw : legalWidth width = true) {g h : Lanes}
    (hgh : LanesAgree (laneWords width.toNat) g h) (p q : Vector Word 32) :
    foldedDigest width.toNat g p = foldedDigest width.toNat h q := by
  obtain ⟨hcount, hwords⟩ : (foldedWords width.toNat g p).1 = (foldedWords width.toNat h q).1 ∧
      AgreeBelow (foldedWords width.toNat g p).1 (foldedWords width.toNat g p).2 (foldedWords width.toNat h q).2 :=
    halveLoop_agree _ _ (agreeBelow_foldInto hw hgh p q)
  rw [foldedDigest, foldedDigest, ← hcount, digestOf_eq_of_agreeBelow hwords]

/-- The lanes that the phase steps leave before FOLD, from any old lanes `h`, give the digest of the block
(44_block_driver.md R170, R172). -/
theorem foldedDigest_eq_digestAt {width : Word} (hw : legalWidth width = true) (bytes : List Byte) (seed : Word)
    (h : Lanes) (p : Vector Word 32) :
    foldedDigest width.toNat
      (diffusePasses (laneWords width.toNat)
        (lenMix Config.mixConst (laneWords width.toNat) (BitVec.ofNat 64 bytes.length)
          (absorb (laneWords width.toNat) (blockBytes width.toNat) (bytes.length / blockBytes width.toNat) bytes
            (seedLanes Config.mixConst seed (laneWords width.toNat) h)))) p =
      digestAt bytes seed width.toNat := by
  obtain ⟨-, -, hn, -⟩ := sizes_of_legalWidth hw
  rw [digestAt, hashDigest_eq_foldedDigest]
  refine foldedDigest_eq_of_lanesAgree hw ?_ p _
  exact lanesAgree_runProgram _ _ (lanesAgree_lenMix _ _ (lanesAgree_absorb _ _ _ (lanesAgree_seedLanes hn _ _ _ _)))

end Sys2Proof.Machine
end

section
/-!
PROOFS. A HASH that runs undisturbed, phase by phase: its `CMD` write, SELTIER, SEEDX, the blocks, the tail and the
finalizer. It ends with the digest of its bytes, seed and width (44_block_driver.md R170 to R172).
-/

namespace Sys2Proof.Machine

/-! ### Runs -/

theorem run_succ_of_step {s t : State} (h : step s = .next t) (k : Nat) :
    Sys2Proof.core.run (k + 1) s = Sys2Proof.core.run k t := by
  have hcore : Sys2Proof.core.step s = .next t := h
  simp only [Host.Core.run, hcore]

/-- A run goes on from where its first part ends. -/
theorem run_add {j : Nat} {s t : State} (h : Sys2Proof.core.run j s = .next t) (k : Nat) :
    Sys2Proof.core.run (j + k) s = Sys2Proof.core.run k t := by
  induction j generalizing s with
  | zero =>
    obtain rfl : s = t := Host.Outcome.next.inj h
    rw [Nat.zero_add]
  | succ j ih =>
    rw [Nat.add_right_comm]
    simp only [Host.Core.run] at h ⊢
    cases hs : Sys2Proof.core.step s with
    | next u =>
      simp only [hs] at h ⊢
      exact ih h
    | fault r => simp [hs] at h
    | refused r => simp [hs] at h

/-! ### The bytes of the buffer -/

theorem backedRun_iff {m : Memory} {a n : Nat} : backedRun m a n = true ↔ ∀ j, j < n → m.backed (a + j) = true := by
  simp [backedRun]

theorem backedRun_take {m : Memory} {a n k : Nat} (h : backedRun m a n = true) (hk : k ≤ n) :
    backedRun m a k = true :=
  backedRun_iff.2 fun j hj => backedRun_iff.1 h j (by omega)

theorem backedRun_drop {m : Memory} {a n : Nat} (h : backedRun m a n = true) (k : Nat) :
    backedRun m (a + k) (n - k) = true :=
  backedRun_iff.2 fun j hj => by
    rw [Nat.add_assoc]
    exact backedRun_iff.1 h (k + j) (by omega)

@[simp] theorem bytesAt_length (m : Memory) (a n : Nat) : (bytesAt m a n).length = n := by simp [bytesAt]

theorem bytesAt_take (m : Memory) (a : Nat) {n k : Nat} (hk : k ≤ n) :
    (bytesAt m a n).take k = bytesAt m a k := by
  simp [bytesAt, ← List.map_take, List.take_range, Nat.min_eq_left hk]

theorem bytesAt_drop (m : Memory) (a n k : Nat) : (bytesAt m a n).drop k = bytesAt m (a + k) (n - k) := by
  refine List.ext_getElem (by simp) fun j _ _ => ?_
  simp [bytesAt, Nat.add_assoc]

/-- The engine reads a backed run as its bytes (20_memory.md R62). -/
theorem readBuffer_eq_bufferBytes {s : State} {a n : Nat} (h : backedRun s.mem a n = true) :
    s.readBuffer a n = .data (s.bufferBytes a n) := by
  rcases readBuffer_spec s a n with ⟨bytes, hread, hlen, hbytes⟩ | ⟨k, _, hk, _, _, hnone, _⟩
  · rw [hread]
    refine congrArg BufferRead.data (List.ext_getElem (by simp [State.bufferBytes, hlen]) fun j hj _ => ?_)
    simp [State.bufferBytes, hbytes j (by omega), List.getElem?_eq_getElem hj]
  · have hbacked := backedRun_iff.1 h k hk
    rw [← bufferByte_isSome, hnone] at hbacked
    cases hbacked

/-- Without a racing store of the host the engine reads what the memory holds (20_memory.md R75). -/
theorem bufferBytes_eq_bytesAt {s : State} (h : s.raced = []) (a n : Nat) :
    s.bufferBytes a n = bytesAt s.mem a n := by
  have hbyte (x : Nat) : s.bufferByte x = s.mem.read x := bufferByte_of_not_raced s x (by rw [h]; rfl)
  simp [State.bufferBytes, bytesAt, hbyte]

/-! ### What each phase step does under its contract -/

/-- After SELTIER (46_tier_selector.md R233). -/
def State.tierSelected (s : State) : State :=
  { s with tier := BitVec.ofNat 2 (selectTier capabilities s.ltier.toNat s.lbuf), phase := phSeedx }

/-- After SEEDX (42_seed_expansion.md R140). -/
def State.seedExpanded (s : State) : State :=
  { s with
    h := seedLanes Config.mixConst s.lseed s.n s.h
    seedw := seedAfter Config.mixConst s.lseed 4
    phase := nextBlockPhase s.remain s.bs }

/-- After DIFFUSE (45_finalizer.md R200). -/
def State.diffused (s : State) : State :=
  { s with h := diffusePasses s.n (lenMix Config.mixConst s.n s.llen s.h), phase := phFold }

/-- After FOLD (45_finalizer.md R208). -/
def State.folded (s : State) : State :=
  { s with
    p := foldInto s.lwidth.toNat s.h s.p, count := foldWords s.lwidth.toNat, phase := phHalve }

/-- After HALVE (45_finalizer.md R212). -/
def State.halved (s : State) : State :=
  { s with
    count := (halveLoop (digestWords s.lwidth.toNat) s.count s.count s.p).1
    p := (halveLoop (digestWords s.lwidth.toNat) s.count s.count s.p).2
    phase := phEmit }

/-- After EMIT (45_finalizer.md R216). -/
def State.emitted (s : State) : State :=
  { s with digest := digestOf s.count s.p, dvalid := true, result := resOk, busy := false, phase := phIdle }

/-- After the finalizer: the four states above in one. -/
def State.finalized (s : State) : State :=
  let lanes := diffusePasses s.n (lenMix Config.mixConst s.n s.llen s.h)
  let words := foldedWords s.lwidth.toNat lanes s.p
  { s with
    h := lanes, p := words.2, count := words.1, digest := foldedDigest s.lwidth.toNat lanes s.p
    dvalid := true, result := resOk, busy := false, phase := phIdle }

theorem finalized_eq (s : State) : s.diffused.folded.halved.emitted = s.finalized := by
  simp only [State.diffused, State.folded, State.halved, State.emitted, State.finalized, foldedWords, foldedDigest]

section
variable {s : State} (contract : s.contractHolds = true)
include contract

theorem exec_seltier : exec .seltier s = .next s.tierSelected := phaseStep_of_contract contract _

theorem exec_seedx : exec .seedx s = .next s.seedExpanded := phaseStep_of_contract contract _

theorem exec_diffuse : exec .diffuse s = .next s.diffused := phaseStep_of_contract contract _

theorem exec_fold : exec .fold s = .next s.folded := phaseStep_of_contract contract _

theorem exec_halve : exec .halve s = .next s.halved := phaseStep_of_contract contract _

theorem exec_emit (hcount : s.count = digestWords s.lwidth.toNat) : exec .emit s = .next s.emitted :=
  (phaseStep_of_contract contract _).trans (if_pos hcount)

theorem exec_consume_of_backed (hbacked : backedRun s.mem s.readAddress s.bs = true) :
    exec .consume s = .next (s.consumeBlock (s.bufferBytes s.readAddress s.bs)) := by
  refine (phaseStep_of_contract contract _).trans ?_
  rw [readBuffer_eq_bufferBytes hbacked]

theorem exec_drain_of_backed (hbacked : backedRun s.mem s.readAddress s.remain.toNat = true) :
    exec .drain s = .next (s.drainBlock (s.bufferBytes s.readAddress s.remain.toNat)) := by
  refine (phaseStep_of_contract contract _).trans ?_
  rw [readBuffer_eq_bufferBytes hbacked]

/-- Whatever the tier, a round of the command in progress is the scalar round (43_mixing_round.md R156). -/
theorem tierRound_of_contract (w : List Word) (h : Lanes) :
    tierRound (tierWords s.tier) s.n w h = scalarRound s.n w h :=
  tierRound_eq_scalarRound (tierWords_dvd_laneWords s.tier ((contractHolds_iff s).1 contract).1) w h

end

/-! ### The engine inside a HASH -/

/-- The engine is inside a HASH and the host does nothing. -/
structure MidHash (s : State) : Prop where
  script : s.script = []
  result : s.result = resNone
  contract : s.contractHolds = true

/-- Inside a HASH a step runs the phase step that PHASE names (44_block_driver.md R171). -/
theorem MidHash.step_eq {s : State} (h : MidHash s) {i : Instr} (hi : decode (.phase s.phase) = .ok i) :
    step s = exec i s := by
  have hres : reservedResult s.result = false := by rw [h.result]; rfl
  simp [step, machineStep, h.script, engineTurn, hres, hi]

/-- SELTIER and SEEDX (44_block_driver.md R171). -/
theorem run_seltier_seedx {s : State} (h : MidHash s) (hphase : s.phase = phSeltier) :
    Sys2Proof.core.run 2 s = .next s.tierSelected.seedExpanded := by
  have seltier : step s = .next s.tierSelected :=
    (h.step_eq (by rw [hphase]; rfl)).trans (exec_seltier h.contract)
  have h1 : MidHash s.tierSelected := ⟨h.script, h.result, h.contract⟩
  have seedx : step s.tierSelected = .next s.tierSelected.seedExpanded :=
    (h1.step_eq rfl).trans (exec_seedx h1.contract)
  rw [run_succ_of_step seltier, run_succ_of_step seedx]
  rfl

/-- DIFFUSE, FOLD, HALVE and EMIT: HALVE leaves the digest words, so EMIT does publish them
(44_block_driver.md R171; 45_finalizer.md R212, R216). -/
theorem run_finalizer {s : State} (h : MidHash s) (hphase : s.phase = phDiffuse) :
    Sys2Proof.core.run 4 s = .next s.finalized := by
  have diffuse : step s = .next s.diffused :=
    (h.step_eq (by rw [hphase]; rfl)).trans (exec_diffuse h.contract)
  have h1 : MidHash s.diffused := ⟨h.script, h.result, h.contract⟩
  have fold : step s.diffused = .next s.diffused.folded := (h1.step_eq rfl).trans (exec_fold h1.contract)
  have h2 : MidHash s.diffused.folded := ⟨h.script, h.result, h.contract⟩
  have halve : step s.diffused.folded = .next s.diffused.folded.halved :=
    (h2.step_eq rfl).trans (exec_halve h2.contract)
  have h3 : MidHash s.diffused.folded.halved := ⟨h.script, h.result, h.contract⟩
  have hcount : s.diffused.folded.halved.count = digestWords s.lwidth.toNat :=
    halveLoop_count ((contractHolds_iff s).1 h.contract).1 _
  have emit : step s.diffused.folded.halved = .next s.diffused.folded.halved.emitted :=
    (h3.step_eq rfl).trans (exec_emit h3.contract hcount)
  rw [run_succ_of_step diffuse, run_succ_of_step fold, run_succ_of_step halve, run_succ_of_step emit, finalized_eq]
  rfl

/-! ### The blocks and the tail -/

/-- The engine is about to consume the bytes left of its buffer: they are backed, and no store of the host races. -/
structure Absorbing (s : State) : Prop extends MidHash s where
  phase : s.phase = nextBlockPhase s.remain s.bs
  raced : s.raced = []
  backed : backedRun s.mem s.readAddress s.remain.toNat = true
  fits : s.cursor.toNat + s.remain.toNat < 2 ^ 64

namespace Absorbing

variable {s : State}

/-- With a block left, the step consumes it. -/
theorem step_consume (h : Absorbing s) (hblock : s.bs ≤ s.remain.toNat) :
    step s = .next (s.consumeBlock (bytesAt s.mem s.readAddress s.bs)) := by
  have hphase : s.phase = phConsuming := h.phase.trans (if_pos hblock)
  rw [h.step_eq (i := .consume) (by rw [hphase]; rfl),
    exec_consume_of_backed h.contract (backedRun_take h.backed hblock), bufferBytes_eq_bytesAt h.raced]

/-- With less than a block left, the step drains it. -/
theorem step_drain (h : Absorbing s) (htail : s.remain.toNat < s.bs) :
    step s = .next (s.drainBlock (bytesAt s.mem s.readAddress s.remain.toNat)) := by
  have hphase : s.phase = phDraining := h.phase.trans (if_neg (Nat.not_le.2 htail))
  rw [h.step_eq (i := .drain) (by rw [hphase]; rfl),
    exec_drain_of_backed h.contract h.backed, bufferBytes_eq_bytesAt h.raced]

/-- REMAIN after a block is consumed. -/
theorem remain_consumeBlock (h : Absorbing s) (hblock : s.bs ≤ s.remain.toNat) (bytes : List Byte) :
    (s.consumeBlock bytes).remain.toNat = s.remain.toNat - s.bs := by
  have hbs := bs_of_contract h.contract
  show (s.remain - BitVec.ofNat 64 s.bs).toNat = _
  bv_omega

/-- The read address after a block is consumed: CURSOR does not wrap. -/
theorem readAddress_consumeBlock (h : Absorbing s) (hblock : s.bs ≤ s.remain.toNat) (bytes : List Byte) :
    (s.consumeBlock bytes).readAddress = s.readAddress + s.bs := by
  have hbs := bs_of_contract h.contract
  have hfits := h.fits
  show s.lbuf.toNat + (s.cursor + BitVec.ofNat 64 s.bs).toNat = s.lbuf.toNat + s.cursor.toNat + s.bs
  bv_omega

theorem consumeBlock (h : Absorbing s) (hblock : s.bs ≤ s.remain.toNat) (bytes : List Byte) :
    Absorbing (s.consumeBlock bytes) where
  script := h.script
  result := h.result
  contract := h.contract
  phase := rfl
  raced := h.raced
  backed := by
    rw [h.readAddress_consumeBlock hblock, h.remain_consumeBlock hblock]
    exact backedRun_drop h.backed s.bs
  fits := by
    have hremain := h.remain_consumeBlock hblock bytes
    have haddr := h.readAddress_consumeBlock hblock bytes
    have hfits := h.fits
    have hlbuf : (s.consumeBlock bytes).lbuf = s.lbuf := rfl
    simp only [State.readAddress, hlbuf] at haddr
    omega

end Absorbing

/-- After the whole blocks and the tail (44_block_driver.md R176, R182): the lanes have absorbed the bytes left. What
the scratch block, CURSOR and the log of port reads hold then, the finalizer does not read. -/
def State.absorbed (s : State) (k : Nat) (blk : Vector Byte 1024) (cursor : Addr) (reads : List PortRead) : State :=
  { s with
    h := absorb s.n s.bs k (bytesAt s.mem s.readAddress s.remain.toNat) s.h
    blk := blk, cursor := cursor, remain := 0, phase := phDiffuse, reads := reads }

/-- With less than a block left, the drained state has absorbed the tail. -/
theorem Absorbing.drainBlock_eq_absorbed {s t : State} (h : Absorbing s)
    (ht : t = s.drainBlock (bytesAt s.mem s.readAddress s.remain.toNat)) :
    t = s.absorbed 0 t.blk t.cursor t.reads := by
  subst ht
  have hlanes : (s.drainBlock (bytesAt s.mem s.readAddress s.remain.toNat)).h =
      absorb s.n s.bs 0 (bytesAt s.mem s.readAddress s.remain.toNat) s.h :=
    tierRound_of_contract h.contract _ _
  rw [State.absorbed, ← hlanes]
  rfl

/-- Absorbing the rest after one block is absorbing the whole. -/
theorem Absorbing.absorbed_consumeBlock {s : State} (h : Absorbing s) (hblock : s.bs ≤ s.remain.toNat) (k : Nat)
    (blk : Vector Byte 1024) (cursor : Addr) (reads : List PortRead) :
    (s.consumeBlock (bytesAt s.mem s.readAddress s.bs)).absorbed k blk cursor reads =
      s.absorbed (k + 1) blk cursor reads := by
  have hlanes : (s.consumeBlock (bytesAt s.mem s.readAddress s.bs)).h =
      scalarRound s.n (wordsOf (bytesAt s.mem s.readAddress s.bs)) s.h :=
    tierRound_of_contract h.contract _ _
  unfold State.absorbed
  rw [h.remain_consumeBlock hblock, h.readAddress_consumeBlock hblock, hlanes, absorb, bytesAt_take _ _ hblock,
    bytesAt_drop]
  rfl

/-- The whole blocks and the tail, by induction on the blocks left (44_block_driver.md R176, R182). -/
theorem Absorbing.run_eq {s : State} (h : Absorbing s) :
    ∃ blk cursor reads, Sys2Proof.core.run (s.remain.toNat / s.bs + 1) s =
      .next (s.absorbed (s.remain.toNat / s.bs) blk cursor reads) := by
  have hbs : 0 < s.bs := by rcases bs_of_contract h.contract with e | e | e <;> omega
  generalize hk : s.remain.toNat / s.bs = k
  induction k generalizing s with
  | zero =>
    have htail : s.remain.toNat < s.bs := (Nat.div_eq_zero_iff_lt hbs).1 hk
    rw [run_succ_of_step (h.step_drain htail)]
    exact ⟨_, _, _, congrArg Host.Outcome.next (h.drainBlock_eq_absorbed rfl)⟩
  | succ k ih =>
    have hblock : s.bs ≤ s.remain.toNat := by
      by_contra hlt
      rw [Nat.div_eq_of_lt (by omega)] at hk
      omega
    have hk' : (s.remain.toNat - s.bs) / s.bs = k := by
      rw [Nat.div_eq_sub_div hbs hblock] at hk
      omega
    rw [← h.remain_consumeBlock hblock (bytesAt s.mem s.readAddress s.bs)] at hk'
    obtain ⟨blk, cursor, reads, hrun⟩ := ih (h.consumeBlock hblock _) hbs hk'
    refine ⟨blk, cursor, reads, ?_⟩
    rw [run_succ_of_step (h.step_consume hblock), hrun, h.absorbed_consumeBlock hblock]

/-- The digest that the finalizer publishes after the blocks and the tail. -/
theorem absorbed_finalized_digest (s : State) (k : Nat) (blk : Vector Byte 1024) (cursor : Addr)
    (reads : List PortRead) :
    (s.absorbed k blk cursor reads).finalized.digest =
      foldedDigest s.lwidth.toNat
        (diffusePasses s.n (lenMix Config.mixConst s.n s.llen
          (absorb s.n s.bs k (bytesAt s.mem s.readAddress s.remain.toNat) s.h))) s.p := rfl

theorem Absorbing.midHash_absorbed {s : State} (h : Absorbing s) (k : Nat) (blk : Vector Byte 1024) (cursor : Addr)
    (reads : List PortRead) : MidHash (s.absorbed k blk cursor reads) :=
  ⟨h.script, h.result, h.contract⟩

/-! ### The whole HASH -/

/-- A write of CMD while the block is idle runs the command (60_exceptions.md R245). -/
theorem step_of_command {s : State} {c : Word} {i : Instr} {rest : List Event}
    (hscript : s.script = .write 0x000 4 c :: rest) (idle : s.idle) (hi : decode (.command c) = .ok i) :
    step s = exec i { s with script := rest } := by
  obtain ⟨hbusy, hfatal⟩ := idle
  simp [step, machineStep, hscript, performEvent, accessWellFormed, regAt, writeReg, writeCmd, hbusy, hfatal, hi]

theorem exec_hash_of_valid {s : State} (idle : s.idle) (valid : s.hashValid = true)
    (noDevice : s.deviceInBuffer = false) : exec .hash s = .next s.accept := by
  refine (commandStep_of_idle idle.1 idle.2 _).trans ?_
  simp [valid, noDevice]

/-- The state after the `CMD` write of an issued HASH. -/
def State.launched (s : State) : State := State.accept { s with script := [] }

/-- The state in which an issued HASH begins to absorb its buffer. -/
def State.started (s : State) : State := s.launched.tierSelected.seedExpanded

section
variable (s : State)

@[simp] theorem started_mem : s.started.mem = s.mem := rfl
@[simp] theorem started_llen : s.started.llen = s.len := rfl
@[simp] theorem started_remain : s.started.remain = s.len := rfl
@[simp] theorem started_lwidth : s.started.lwidth = s.width := rfl
@[simp] theorem started_n : s.started.n = laneWords s.width.toNat := rfl
@[simp] theorem started_bs : s.started.bs = blockBytes s.width.toNat := rfl
@[simp] theorem started_readAddress : s.started.readAddress = s.buf.toNat := rfl
@[simp] theorem started_h :
    s.started.h = seedLanes Config.mixConst s.seed (laneWords s.width.toNat) s.h := rfl

end

namespace HashIssued

variable {s : State}

/-- The `CMD` write of an issued HASH is its acceptance (44_block_driver.md R175). -/
theorem step_eq (h : HashIssued s) : step s = .next s.launched :=
  (step_of_command h.script h.idle rfl).trans
    (exec_hash_of_valid (s := { s with script := [] }) h.idle h.valid h.noDevice)

/-- What validation passes is the contract of the phase steps (44_block_driver.md R173). -/
theorem midHash_launched (h : HashIssued s) : MidHash s.launched := by
  have hvalid := h.valid
  simp only [State.hashValid, Bool.and_eq_true] at hvalid
  obtain ⟨⟨hwidth, htier⟩, -⟩ := hvalid
  exact ⟨rfl, rfl, Bool.and_eq_true_iff.2 ⟨hwidth, htier⟩⟩

theorem width_legal (h : HashIssued s) : legalWidth s.width = true :=
  ((contractHolds_iff _).1 h.midHash_launched.contract).1

theorem absorbing (h : HashIssued s) : Absorbing s.started where
  script := rfl
  result := rfl
  contract := h.midHash_launched.contract
  phase := rfl
  raced := rfl
  backed := h.backed
  fits := by
    show 0 + s.len.toNat < 2 ^ 64
    rw [Nat.zero_add]
    exact s.len.isLt

/-- The finalizer publishes the digest of the block: the lanes and provisional words of earlier commands do not
enter it. -/
theorem digest_eq (h : HashIssued s) (blk : Vector Byte 1024) (cursor : Addr) (reads : List PortRead) :
    (s.started.absorbed (s.len.toNat / blockBytes s.width.toNat) blk cursor reads).finalized.digest =
      digestAt (bytesAt s.mem s.buf.toNat s.len.toNat) s.seed s.width.toNat := by
  rw [absorbed_finalized_digest, ← foldedDigest_eq_digestAt h.width_legal _ _ s.h s.started.p]
  simp

/-- An issued HASH ends with the digest of its bytes, seed and width, DVALID 1 and RESULT OK; what the host wrote,
the memory, PERR and RES are as before (44_block_driver.md R170, R172). -/
theorem run_eq (h : HashIssued s) :
    ∃ t, Sys2Proof.core.run (hashSteps s) s = .next t ∧
      t.digest = digestAt (bytesAt s.mem s.buf.toNat s.len.toNat) s.seed s.width.toNat ∧
      t = { s with
        script := [], phase := phIdle, busy := false, result := resOk, dvalid := true, digest := t.digest
        tier := BitVec.ofNat 2 (selectTier capabilities s.tierreq.toNat s.buf)
        lseed := s.seed, lwidth := s.width, ltier := s.tierreq, lbuf := s.buf, llen := s.len
        cursor := t.cursor, remain := 0, h := t.h, seedw := t.seedw, blk := t.blk, p := t.p, count := t.count
        raced := [], draws := s.draws + 1, reads := t.reads } := by
  obtain ⟨blk, cursor, reads, hblocks⟩ := h.absorbing.run_eq
  refine ⟨_, ?_, h.digest_eq blk cursor reads, ?_⟩
  · have hsteps : hashSteps s = 2 + ((s.len.toNat / blockBytes s.width.toNat + 1) + 4) + 1 := by
      unfold hashSteps
      omega
    rw [hsteps, run_succ_of_step h.step_eq, run_add (run_seltier_seedx h.midHash_launched rfl)]
    exact (run_add hblocks 4).trans (run_finalizer (h.absorbing.midHash_absorbed _ blk cursor reads) rfl)
  · rfl

end HashIssued

/-- Settles O53: each run ends with the digest of its bytes, seed and width as one function, which names neither
tier, nor address, nor anything else of the state. -/
theorem theDigestIgnoresTierAddressAndHistory : Obligations.TheDigestIgnoresTierAddressAndHistory := by
  intro s s' hs hs' hseed hwidth _ hbytes
  obtain ⟨t, hrun, hdigest, hframe⟩ := hs.run_eq
  obtain ⟨t', hrun', hdigest', hframe'⟩ := hs'.run_eq
  have hdvalid : t.dvalid = true := by rw [hframe]
  have hdvalid' : t'.dvalid = true := by rw [hframe']
  refine ⟨t, t', hrun, hrun', hdvalid, hdvalid', ?_⟩
  rw [hdigest, hdigest', hseed, hwidth, hbytes]

end Sys2Proof.Machine
end

section
/-!
PROOFS. All that one step can do, as two relations: a turn of the engine, and an action of the host. What a step
leaves unchanged is then read off their constructors.
-/

namespace Sys2Proof.Machine

/-! ### The command words -/

/-- With its reserved field 0 a command word is its opcode (30_encoding.md R90). -/
theorem toNat_eq_opcode {c : Word} (h : reservedField c = 0#24) : c.toNat = (opcodeField c).toNat := by
  have hreserved : c.toNat / 2 ^ 8 % 2 ^ 24 = 0 := by
    simpa [reservedField, BitVec.extractLsb'_toNat, Nat.shiftRight_eq_div_pow] using congrArg BitVec.toNat h
  have hopcode : (opcodeField c).toNat = c.toNat % 2 ^ 8 := by
    simp [opcodeField]
  omega

/-- The command words are those of the table (30_encoding.md R92), and no others. -/
theorem command_of_decode {c : Word} {i : Instr} (h : decode (.command c) = .ok i) :
    (c = 0x01 ∧ i = .mix) ∨ (c = 0x02 ∧ i = .mixc) ∨ (c = 0x10 ∧ i = .hash) := by
  simp only [decode, decodeCommand] at h
  split at h
  · cases h
  next hreserved =>
  have hreserved := not_not.1 hreserved
  split at h
  next hopc => cases h; exact .inl ⟨BitVec.eq_of_toNat_eq (by rw [toNat_eq_opcode hreserved, hopc]; rfl), rfl⟩
  split at h
  next hopc => cases h; exact .inr (.inl ⟨BitVec.eq_of_toNat_eq (by rw [toNat_eq_opcode hreserved, hopc]; rfl), rfl⟩)
  split at h
  next hopc => cases h; exact .inr (.inr ⟨BitVec.eq_of_toNat_eq (by rw [toNat_eq_opcode hreserved, hopc]; rfl), rfl⟩)
  · cases h

/-! ### Which action a step takes -/

/-- The engine's turn, by the script or by an empty one (70_reset_and_hazards.md R288). -/
theorem step_of_engineNext {s : State} {rest : List Event} (h : s.engineNext rest) :
    step s = engineTurn { s with script := rest } := by
  rcases h with hscript | ⟨hscript, rfl⟩
  · simp [step, machineStep, hscript, performEvent]
  · have hs : { s with script := [] } = s := by rw [← hscript]
    simp [step, machineStep, hscript, hs]

theorem step_of_script {s : State} {e : Event} {rest : List Event} (h : s.script = e :: rest) :
    step s = performEvent { s with script := rest } e := by
  simp [step, machineStep, h]

theorem accessWellFormed_iff {offset size : Nat} :
    accessWellFormed offset size = true ↔ size = 4 ∧ offset % 4 = 0 := by
  simp [accessWellFormed]

theorem performEvent_write {offset : Nat} (h : offset % 4 = 0) (s : State) (v : Word) :
    performEvent s (.write offset 4 v) = writeReg s (regAt offset) v := by
  simp [performEvent, accessWellFormed_iff.2 ⟨rfl, h⟩]

theorem performEvent_read {offset : Nat} (h : offset % 4 = 0) (s : State) :
    performEvent s (.read offset 4) = .next { s with rdata := some (readReg s (regAt offset)) } := by
  simp [performEvent, accessWellFormed_iff.2 ⟨rfl, h⟩]

theorem regAt_ne_cmd {offset : Nat} (h : offset ≠ 0) : regAt offset ≠ .cmd := by
  fun_cases regAt offset
  case case1 hzero => exact absurd hzero h
  all_goals nofun

theorem writeReg_cmd (s : State) (c : Word) : writeReg s .cmd c = writeCmd s c := by
  cases h : s.busy <;> simp [writeReg, writeCmd, h]

/-- A command looks at BUSY and FATAL itself, so a write of CMD is the command whatever they are
(60_exceptions.md R245). -/
theorem writeCmd_of_decode {s : State} {c : Word} {i : Instr} (hi : decode (.command c) = .ok i) :
    writeCmd s c = exec i s := by
  have hdrop : ∃ effect, exec i s = commandStep s effect := by
    rcases decodeCommand_ok hi with rfl | rfl | rfl <;> exact ⟨_, rfl⟩
  obtain ⟨effect, heffect⟩ := hdrop
  rcases writeCmd_cases s c with ⟨hbusy, e⟩ | ⟨hbusy, hfatal, e⟩ | ⟨_, _, ⟨r, hr⟩, _⟩ | ⟨_, _, j, hj, e⟩
  · rw [e, heffect, commandStep, if_pos hbusy]
  · simp [e, heffect, commandStep, hbusy, hfatal]
  · rw [hi] at hr
    cases hr
  · rw [hi] at hj
    cases hj
    exact e

/-! ### What the engine's turn looks at -/

theorem reservedResult_eq_false {r : BitVec 4} (h : r.toNat ≤ 5) : reservedResult r = false :=
  decide_eq_false (by omega)

theorem engineTurn_of_decode {s : State} {i : Instr} (hresult : s.result.toNat ≤ 5)
    (hi : decode (.phase s.phase) = .ok i) : engineTurn s = exec i s := by
  simp [engineTurn, reservedResult_eq_false hresult, hi]

/-- In IDLE and in FATAL the engine takes no step (10_state.md R34). -/
theorem engineTurn_of_rest {s : State} (hresult : s.result.toNat ≤ 5) (h : s.phase = phIdle ∨ s.phase = phFatal) :
    engineTurn s = .next s := by
  have hidle : decode (.phase phIdle) = .error .idlePhase := rfl
  have hfatal : decode (.phase phFatal) = .error .fatalPhase := rfl
  rcases h with h | h <;> simp [engineTurn, reservedResult_eq_false hresult, h, hidle, hfatal]

theorem decode_reservedPhase {p : BitVec 4} (h : 9 ≤ p.toNat ∧ p.toNat ≤ 14) :
    decode (.phase p) = .error .reservedPhase := by
  revert p
  decide

/-- A reserved code is the fatal state (10_state.md R35; notes/assumptions/13.md). -/
theorem engineTurn_of_reserved {s : State} (h : 6 ≤ s.result.toNat ∨ (9 ≤ s.phase.toNat ∧ s.phase.toNat ≤ 14)) :
    engineTurn s = .next s.raiseFatal := by
  rcases h with h | h
  · simp [engineTurn, reservedResult, h]
  · simp [engineTurn, decode_reservedPhase h]

/-- A phase code names no step, or is reserved, or names a phase step (10_state.md R34). -/
theorem phase_trichotomy (p : BitVec 4) :
    (p = phIdle ∨ p = phFatal) ∨ (9 ≤ p.toNat ∧ p.toNat ≤ 14) ∨
    (1 ≤ p.toNat ∧ p.toNat ≤ 8 ∧ ∃ i, decode (.phase p) = .ok i) := by
  have h : ∀ p : BitVec 4, (p = phIdle ∨ p = phFatal) ∨ (9 ≤ p.toNat ∧ p.toNat ≤ 14) ∨
      (1 ≤ p.toNat ∧ p.toNat ≤ 8 ∧
        ∃ i ∈ [Instr.seltier, .seedx, .consume, .drain, .diffuse, .fold, .halve, .emit],
          decode (.phase p) = .ok i) := by decide
  rcases h p with h | h | ⟨hlow, hhigh, i, _, hi⟩
  · exact .inl h
  · exact .inr (.inl h)
  · exact .inr (.inr ⟨hlow, hhigh, i, hi⟩)

/-! ### A turn of the engine -/

/-- What sends the engine's turn to the fatal state (60_exceptions.md R250; 10_state.md R35). -/
inductive FatalCause (s : State) : Prop
  | contract (hphase : 1 ≤ s.phase.toNat ∧ s.phase.toNat ≤ 8) (h : s.contractHolds = false)
  | count (hphase : s.phase = phEmit) (h : s.count ≠ digestWords s.lwidth.toNat)
  | code (h : 6 ≤ s.result.toNat ∨ (9 ≤ s.phase.toNat ∧ s.phase.toNat ≤ 14))

/-- All that a turn of the engine can do to the state `s`. -/
inductive EngineMove (s : State) : State → Prop
  | rest (hphase : s.phase = phIdle ∨ s.phase = phFatal) : EngineMove s s
  | fatal (cause : FatalCause s) : EngineMove s s.raiseFatal
  | seltier (hphase : s.phase = phSeltier) : EngineMove s s.tierSelected
  | seedx (hphase : s.phase = phSeedx) : EngineMove s s.seedExpanded
  | consume (hphase : s.phase = phConsuming) (bytes : List Byte) : EngineMove s (s.consumeBlock bytes)
  | drain (hphase : s.phase = phDraining) (tail : List Byte) : EngineMove s (s.drainBlock tail)
  | busError (hphase : s.phase = phConsuming ∨ s.phase = phDraining) (blk : Vector Byte 1024)
      (reads : List PortRead) : EngineMove s (State.raiseBusError { s with blk := blk, reads := reads })
  | diffuse (hphase : s.phase = phDiffuse) : EngineMove s s.diffused
  | fold (hphase : s.phase = phFold) : EngineMove s s.folded
  | halve (hphase : s.phase = phHalve) : EngineMove s s.halved
  | emit (hphase : s.phase = phEmit) : EngineMove s s.emitted

/-- A phase step whose contract is broken is the fatal state (60_exceptions.md R250). -/
theorem exec_of_broken_contract {s : State} {p : BitVec 4} {i : Instr} (hi : decode (.phase p) = .ok i)
    (h : s.contractHolds = false) : exec i s = .next s.raiseFatal := by
  have hstep : ∃ effect, exec i s = phaseStep s effect := by
    rcases decodePhase_ok hi with ⟨_, rfl⟩ | ⟨_, rfl⟩ | ⟨_, rfl⟩ | ⟨_, rfl⟩ | ⟨_, rfl⟩ | ⟨_, rfl⟩ | ⟨_, rfl⟩ |
      ⟨_, rfl⟩ <;> exact ⟨_, rfl⟩
  obtain ⟨effect, e⟩ := hstep
  simp [e, phaseStep, h]

/-- CONSUME mixes its block or ends in a bus error (44_block_driver.md R177). -/
theorem engineMove_consume {s t : State} (hphase : s.phase = phConsuming) (contract : s.contractHolds = true)
    (h : exec .consume s = .next t) : EngineMove s t := by
  have heffect := (phaseStep_of_contract contract _).symm.trans h
  split at heffect
  · cases heffect
    exact .consume hphase _
  · cases heffect
    exact .busError (.inl hphase) s.blk _

/-- DRAIN mixes the padded tail or ends in a bus error (44_block_driver.md R178). -/
theorem engineMove_drain {s t : State} (hphase : s.phase = phDraining) (contract : s.contractHolds = true)
    (h : exec .drain s = .next t) : EngineMove s t := by
  have heffect := (phaseStep_of_contract contract _).symm.trans h
  split at heffect
  · cases heffect
    exact .drain hphase _
  · cases heffect
    exact .busError (.inr hphase) _ _

/-- EMIT publishes the digest, or finds a wrong COUNT (45_finalizer.md R216). -/
theorem engineMove_emit {s t : State} (hphase : s.phase = phEmit) (contract : s.contractHolds = true)
    (h : exec .emit s = .next t) : EngineMove s t := by
  have heffect := (phaseStep_of_contract contract _).symm.trans h
  split at heffect
  · cases heffect
    exact .emit hphase
  next hcount =>
    cases heffect
    exact .fatal (.count hphase hcount)

theorem engineMove_of_exec {s t : State} {i : Instr} (hi : decode (.phase s.phase) = .ok i)
    (contract : s.contractHolds = true) (h : exec i s = .next t) : EngineMove s t := by
  rcases decodePhase_ok hi with ⟨hphase, rfl⟩ | ⟨hphase, rfl⟩ | ⟨hphase, rfl⟩ | ⟨hphase, rfl⟩ | ⟨hphase, rfl⟩ |
    ⟨hphase, rfl⟩ | ⟨hphase, rfl⟩ | ⟨hphase, rfl⟩
  · cases (exec_seltier contract).symm.trans h
    exact .seltier hphase
  · cases (exec_seedx contract).symm.trans h
    exact .seedx hphase
  · exact engineMove_consume hphase contract h
  · exact engineMove_drain hphase contract h
  · cases (exec_diffuse contract).symm.trans h
    exact .diffuse hphase
  · cases (exec_fold contract).symm.trans h
    exact .fold hphase
  · cases (exec_halve contract).symm.trans h
    exact .halve hphase
  · exact engineMove_emit hphase contract h

theorem engineMove_of_turn {s t : State} (h : engineTurn s = .next t) : EngineMove s t := by
  by_cases hcode : 6 ≤ s.result.toNat ∨ (9 ≤ s.phase.toNat ∧ s.phase.toNat ≤ 14)
  · cases (engineTurn_of_reserved hcode).symm.trans h
    exact .fatal (.code hcode)
  have hresult : s.result.toNat ≤ 5 := by omega
  rcases phase_trichotomy s.phase with hrest | hreserved | ⟨hlow, hhigh, i, hi⟩
  · cases (engineTurn_of_rest hresult hrest).symm.trans h
    exact .rest hrest
  · exact absurd (.inr hreserved) hcode
  · rw [engineTurn_of_decode hresult hi] at h
    cases contract : s.contractHolds with
    | true => exact engineMove_of_exec hi contract h
    | false =>
      cases (exec_of_broken_contract hi contract).symm.trans h
      exact .fatal (.contract ⟨hlow, hhigh⟩ contract)

/-! ### An action of the host -/

/-- All that an action of the host, or RST, can do to the state `s`. -/
inductive HostMove (s : State) : Event → State → Prop
  /-- a write while BUSY = 1 (60_exceptions.md R248) -/
  | dropped (hbusy : s.busy = true) (offset : Nat) (v : Word) : HostMove s (.write offset 4 v) s.raiseProtocolError
  /-- a command in the fatal state (60_exceptions.md R245) -/
  | ignored (hbusy : s.busy = false) (hfatal : s.fatal = true) (c : Word) : HostMove s (.write 0 4 c) s
  /-- a write of a register other than CMD (10_state.md R37 to R46) -/
  | configured (hbusy : s.busy = false) (offset : Nat) (v : Word) (seed width : Word) (tierreq : BitVec 3)
      (buflo bufhi lenlo lenhi opa opb : Word) :
      HostMove s (.write offset 4 v)
        { s with
          seed := seed, width := width, tierreq := tierreq, buflo := buflo, bufhi := bufhi
          lenlo := lenlo, lenhi := lenhi, opa := opa, opb := opb }
  /-- an unknown command, or a HASH that validation rejects (60_exceptions.md R246, R247) -/
  | rejected (idle : s.idle) (c : Word) {r : BitVec 4} (hr : r = resErrCmd ∨ r = resErrCfg) :
      HostMove s (.write 0 4 c) { s with result := r }
  /-- MIX or MIXC (41_wordmix.md R125, R126) -/
  | computed (idle : s.idle) {c r : Word}
      (hr : (c = 1 ∧ r = mix s.opa s.opb) ∨ (c = 2 ∧ r = mix1 Config.mixConst s.opa)) :
      HostMove s (.write 0 4 c) { s with res := r, result := resOk }
  /-- a HASH that validation passes (44_block_driver.md R175) -/
  | accepted (idle : s.idle) (valid : s.hashValid = true) : HostMove s (.write 0 4 0x10) s.accept
  /-- a read, `wait`, or the end of `hash` (10_state.md R26; 30_encoding.md R98) -/
  | observed {e : Event} (he : e ≠ .rst) (rdata : Option Word) (returned : Option (List Word)) (script : List Event) :
      HostMove s e { s with rdata := rdata, returned := returned, script := script }
  | store (a : Nat) (v : Byte) : HostMove s (.store a v) (s.storeByte a v)
  | rst : HostMove s .rst s.applyReset

theorem hostMove_of_hash {s t : State} (idle : s.idle) (h : exec .hash s = .next t) :
    HostMove s (.write 0 4 0x10) t := by
  have heffect := (commandStep_of_idle idle.1 idle.2 _).symm.trans h
  split at heffect
  next valid =>
    split at heffect
    · cases heffect
    · cases heffect
      exact .accepted idle valid
  · cases heffect
    exact .rejected idle 0x10 (.inr rfl)

theorem hostMove_of_writeCmd {s t : State} {c : Word} (h : writeCmd s c = .next t) :
    HostMove s (.write 0 4 c) t := by
  rcases writeCmd_cases s c with ⟨hbusy, e⟩ | ⟨hbusy, hfatal, e⟩ | ⟨hbusy, hfatal, _, e⟩ | ⟨hbusy, hfatal, i, hi, e⟩
  · cases e.symm.trans h
    exact .dropped hbusy 0 c
  · cases e.symm.trans h
    exact .ignored hbusy hfatal c
  · cases e.symm.trans h
    exact .rejected ⟨hbusy, hfatal⟩ c (.inl rfl)
  · rw [e] at h
    rcases command_of_decode hi with ⟨rfl, rfl⟩ | ⟨rfl, rfl⟩ | ⟨rfl, rfl⟩
    · cases (commandStep_of_idle hbusy hfatal _).symm.trans h
      exact .computed ⟨hbusy, hfatal⟩ (.inl ⟨rfl, rfl⟩)
    · cases (commandStep_of_idle hbusy hfatal _).symm.trans h
      exact .computed ⟨hbusy, hfatal⟩ (.inr ⟨rfl, rfl⟩)
    · exact hostMove_of_hash ⟨hbusy, hfatal⟩ h

theorem hostMove_of_writeReg {s t : State} {offset : Nat} {v : Word} (h : writeReg s (regAt offset) v = .next t) :
    HostMove s (.write offset 4 v) t := by
  rcases writeReg_cases s (regAt offset) v with ⟨hbusy, e⟩ | ⟨_, hcmd, e⟩ | ⟨hbusy, _, u, e, hu⟩
  · cases e.symm.trans h
    exact .dropped hbusy offset v
  · obtain rfl : offset = 0 := by
      by_contra hne
      exact regAt_ne_cmd hne hcmd
    exact hostMove_of_writeCmd (e.symm.trans h)
  · cases e.symm.trans h
    rw [hu]
    exact .configured hbusy offset v ..

theorem hostMove_of_performEvent {s t : State} {e : Event} (he : e ≠ .engine) (h : performEvent s e = .next t) :
    HostMove s e t := by
  cases e with
  | engine => exact absurd rfl he
  | write offset size v =>
    simp only [performEvent] at h
    split at h
    next hshape =>
      obtain ⟨rfl, -⟩ := accessWellFormed_iff.1 hshape
      exact hostMove_of_writeReg h
    · cases h
  | read offset size =>
    simp only [performEvent] at h
    split at h
    · cases h
      exact .observed (by simp) _ s.returned s.script
    · cases h
  | wait =>
    cases h
    exact .observed (by simp) _ s.returned _
  | collect width =>
    cases h
    exact .observed (by simp) s.rdata _ s.script
  | store a v =>
    cases h
    exact .store a v
  | rst =>
    cases h
    exact .rst

/-- All that one step can do: a turn of the engine, or an action of the host. -/
theorem step_inversion {s t : State} (h : step s = .next t) :
    (∃ rest, s.engineNext rest ∧ EngineMove { s with script := rest } t) ∨
    (∃ e rest, s.script = e :: rest ∧ HostMove { s with script := rest } e t) := by
  by_cases hengine : ∃ rest, s.engineNext rest
  · obtain ⟨rest, hnext⟩ := hengine
    exact .inl ⟨rest, hnext, engineMove_of_turn ((step_of_engineNext hnext).symm.trans h)⟩
  · cases hscript : s.script with
    | nil => exact absurd ⟨[], .inr ⟨hscript, rfl⟩⟩ hengine
    | cons e rest =>
      have he : e ≠ .engine := by
        rintro rfl
        exact hengine ⟨rest, .inl hscript⟩
      exact .inr ⟨e, rest, rfl, hostMove_of_performEvent he ((step_of_script hscript).symm.trans h)⟩

end Sys2Proof.Machine
end

section
/-!
PROOFS. The invariant of the block: a HASH in progress, stage by stage, and that every step keeps it.
-/

namespace Sys2Proof.Machine

/-! ### A HASH in progress -/

/-- The part of the invariant that a HASH in progress keeps from its acceptance to its end. -/
structure InHash (s : State) : Prop where
  memory : s.mem.wf
  result : s.result = resNone
  dvalid : s.dvalid = false
  notFatal : s.fatal = false
  busy : s.busy = true
  noDigest : s.digest = Vector.replicate 32 0
  contract : s.contractHolds = true
  fits : s.lbuf.toNat + s.llen.toNat ≤ 2 ^ 64
  progress : s.cursor.toNat + s.remain.toNat = s.llen.toNat

/-- The buffer address has the alignment of the selected tier (46_tier_selector.md R232). -/
def State.tierFits (s : State) : Prop := tierAligned s.tier.toNat s.lbuf = true

/-- What the sequencer's position in a HASH adds to it, for each phase (44_block_driver.md R171). -/
inductive Stage (s : State) : Prop
  | seltier (hphase : s.phase = phSeltier) (hcursor : s.cursor = 0)
  | seedx (hphase : s.phase = phSeedx) (htier : s.tierFits) (hcursor : s.cursor = 0)
  | blocks (hphase : s.phase = nextBlockPhase s.remain s.bs) (htier : s.tierFits)
      (hwhole : s.cursor.toNat % s.bs = 0)
  | lanes (hphase : s.phase = phDiffuse ∨ s.phase = phFold) (htier : s.tierFits) (hremain : s.remain = 0)
  | halve (hphase : s.phase = phHalve) (htier : s.tierFits) (hremain : s.remain = 0)
      (hcount : s.count = foldWords s.lwidth.toNat)
  | emit (hphase : s.phase = phEmit) (htier : s.tierFits) (hremain : s.remain = 0)
      (hcount : s.count = digestWords s.lwidth.toNat)

/-- The phase codes as numbers (10_state.md R34). -/
theorem phase_codes :
    phIdle = 0#4 ∧ phSeltier = 1#4 ∧ phSeedx = 2#4 ∧ phConsuming = 3#4 ∧ phDraining = 4#4 ∧ phDiffuse = 5#4 ∧
    phFold = 6#4 ∧ phHalve = 7#4 ∧ phEmit = 8#4 ∧ phFatal = 15#4 := by decide

/-- The clauses of the invariant about the position of the sequencer, where it is inside a HASH. -/
structure SequencerSound (s : State) : Prop where
  inRange : s.phase.toNat ≤ 8
  active : s.phase ≠ phIdle
  aligned : s.phase ≠ phSeltier → s.tierFits
  start : s.phase = phSeltier ∨ s.phase = phSeedx → s.cursor = 0
  consuming : s.phase = phConsuming → s.cursor.toNat % s.bs = 0 ∧ s.bs ≤ s.remain.toNat
  draining : s.phase = phDraining → s.cursor.toNat % s.bs = 0 ∧ s.remain.toNat < s.bs
  consumed : phDiffuse.toNat ≤ s.phase.toNat → s.remain = 0
  halving : s.phase = phHalve → s.count = foldWords s.lwidth.toNat
  emitting : s.phase = phEmit → s.count = digestWords s.lwidth.toNat

/-- At each stage one phase code is left, and the clauses about the others are void. -/
theorem Stage.sequencerSound {s : State} (stage : Stage s) : SequencerSound s := by
  cases stage with
  | seltier hphase hcursor => constructor <;> simp [hphase, hcursor, phase_codes]
  | seedx hphase htier hcursor => constructor <;> simp [hphase, htier, hcursor, phase_codes]
  | blocks hphase htier hwhole =>
    rcases nextBlockPhase_cases s.remain s.bs with ⟨hblock, e⟩ | ⟨htail, e⟩ <;> rw [e] at hphase
    · constructor <;> simp [hphase, htier, hwhole, hblock, phase_codes]
    · constructor <;> simp [hphase, htier, hwhole, htail, phase_codes]
  | lanes hphase htier hremain =>
    rcases hphase with hphase | hphase
    · constructor <;> simp [hphase, htier, hremain, phase_codes]
    · constructor <;> simp [hphase, htier, hremain, phase_codes]
  | halve hphase htier hremain hcount => constructor <;> simp [hphase, htier, hremain, hcount, phase_codes]
  | emit hphase htier hremain hcount => constructor <;> simp [hphase, htier, hremain, hcount, phase_codes]

/-- A HASH in progress at one of its stages is consistent. -/
theorem InHash.consistent {s : State} (h : InHash s) (stage : Stage s) : Consistent s :=
  have position := stage.sequencerSound
  { memory := h.memory
    result := by rw [h.result]; decide
    phase := position.inRange
    notFatal := h.notFatal
    busy := iff_of_true h.busy position.active
    inProgress := fun _ => ⟨h.result, h.dvalid⟩
    noDigest := fun _ => h.noDigest
    latched := fun _ => ⟨h.contract, h.fits⟩
    aligned := fun _ => position.aligned
    progress := fun _ => h.progress
    start := position.start
    consuming := position.consuming
    draining := position.draining
    consumed := position.consumed
    halving := position.halving
    emitting := position.emitting }

namespace InHash

variable {s : State}

/-- SELTIER selects a tier that the buffer address has the alignment of (46_tier_selector.md R232). -/
theorem tierFits_tierSelected (h : InHash s) : s.tierSelected.tierFits := by
  obtain ⟨-, htier⟩ := (contractHolds_iff s).1 h.contract
  obtain ⟨hle, -, haligned⟩ := selectTier_spec capabilities s.lbuf htier
  have hcode : s.tierSelected.tier.toNat = selectTier capabilities s.ltier.toNat s.lbuf :=
    Nat.mod_eq_of_lt (by omega)
  rw [State.tierFits, hcode]
  exact haligned

theorem tierSelected (h : InHash s) : InHash s.tierSelected := { h with }
theorem seedExpanded (h : InHash s) : InHash s.seedExpanded := { h with }
theorem diffused (h : InHash s) : InHash s.diffused := { h with }
theorem folded (h : InHash s) : InHash s.folded := { h with }
theorem halved (h : InHash s) : InHash s.halved := { h with }

/-- CONSUME moves one block from REMAIN to CURSOR (10_state.md R25). -/
theorem consumeBlock_toNat (h : InHash s) (hblock : s.bs ≤ s.remain.toNat) (bytes : List Byte) :
    (s.consumeBlock bytes).cursor.toNat = s.cursor.toNat + s.bs ∧
    (s.consumeBlock bytes).remain.toNat = s.remain.toNat - s.bs := by
  have hsum := h.progress
  have hllen := s.llen.isLt
  show (s.cursor + BitVec.ofNat 64 s.bs).toNat = _ ∧ (s.remain - BitVec.ofNat 64 s.bs).toNat = _
  constructor <;> bv_omega

theorem consumeBlock (h : InHash s) (hblock : s.bs ≤ s.remain.toNat) (bytes : List Byte) :
    InHash (s.consumeBlock bytes) := by
  obtain ⟨hcursor, hremain⟩ := h.consumeBlock_toNat hblock bytes
  have hsum := h.progress
  have hllen : (s.consumeBlock bytes).llen = s.llen := rfl
  exact { h with progress := by rw [hcursor, hremain, hllen]; omega }

/-- DRAIN moves the tail from REMAIN to CURSOR (10_state.md R25). -/
theorem drainBlock (h : InHash s) (tail : List Byte) : InHash (s.drainBlock tail) := by
  have hsum := h.progress
  have hllen := s.llen.isLt
  have hprogress : (s.cursor + s.remain).toNat + (0 : Addr).toNat = s.llen.toNat := by bv_omega
  exact { h with progress := hprogress }

end InHash

/-! ### Between two HASH commands -/

/-- With no HASH in progress the invariant says little. -/
theorem consistent_of_idle {s : State} (hphase : s.phase = phIdle) (hbusy : s.busy = false)
    (hmemory : s.mem.wf) (r : BitVec 4) (hresult : s.result = r) (hr : r.toNat ≤ 4) (hfatal : s.fatal = false)
    (hdigest : s.dvalid = false → s.digest = Vector.replicate 32 0) : Consistent s where
  memory := hmemory
  result := hresult ▸ hr
  phase := by rw [hphase]; decide
  notFatal := hfatal
  busy := iff_of_false (by simp [hbusy]) (not_not.2 hphase)
  inProgress := by simp [hbusy]
  noDigest := hdigest
  latched := by simp [hbusy]
  aligned := by simp [hbusy]
  progress := by simp [hbusy]
  start := by simp [hphase, phase_codes]
  consuming := by simp [hphase, phase_codes]
  draining := by simp [hphase, phase_codes]
  consumed := by simp [hphase, phase_codes]
  halving := by simp [hphase, phase_codes]
  emitting := by simp [hphase, phase_codes]

/-- RST gives the block its reset values, whatever it held (10_state.md R52). -/
theorem consistent_applyReset {s : State} (hmemory : s.mem.wf) : Consistent s.applyReset :=
  consistent_of_idle rfl rfl hmemory resNone rfl (by decide) rfl fun _ => rfl

namespace Consistent

variable {s t : State}

theorem phase_of_not_busy (h : Consistent s) (hbusy : s.busy = false) : s.phase = phIdle := by
  by_contra hphase
  have := h.busy.2 hphase
  simp [hbusy] at this

theorem inHash (h : Consistent s) {p : BitVec 4} (hphase : s.phase = p) (hp : p ≠ phIdle) : InHash s := by
  have hbusy : s.busy = true := h.busy.2 (hphase ▸ hp)
  obtain ⟨hresult, hdvalid⟩ := h.inProgress hbusy
  obtain ⟨hcontract, hfits⟩ := h.latched hbusy
  exact ⟨h.memory, hresult, hdvalid, h.notFatal, hbusy, h.noDigest hdvalid, hcontract, hfits, h.progress hbusy⟩

theorem tierFits (h : Consistent s) {p : BitVec 4} (hphase : s.phase = p) (hp : p ≠ phIdle) (hp' : p ≠ phSeltier) :
    s.tierFits :=
  h.aligned (h.inHash hphase hp).busy (hphase ▸ hp')

/-- Nothing sends a consistent state to the fatal state (60_exceptions.md R250). -/
theorem not_fatalCause (h : Consistent s) : ¬ FatalCause s := by
  rintro (⟨⟨hlow, _⟩, hbroken⟩ | ⟨hphase, hcount⟩ | hcode)
  · have hactive : s.phase ≠ phIdle := by
      intro hidle
      rw [hidle] at hlow
      exact absurd hlow (by decide)
    exact absurd (h.inHash rfl hactive).contract (by simp [hbroken])
  · exact hcount (h.emitting hphase)
  · have hresult := h.result
    have hphase := h.phase
    omega

end Consistent

/-! ### Every step -/

theorem EngineMove.consistent {s t : State} (m : EngineMove s t) (h : Consistent s) : Consistent t := by
  cases m with
  | rest => exact h
  | fatal cause => exact absurd cause h.not_fatalCause
  | seltier hphase =>
    have hin := h.inHash hphase (by decide)
    exact hin.tierSelected.consistent (.seedx rfl hin.tierFits_tierSelected (h.start (.inl hphase)))
  | seedx hphase =>
    have hin := h.inHash hphase (by decide)
    have hcursor : s.cursor.toNat % s.bs = 0 := by rw [h.start (.inr hphase)]; exact Nat.zero_mod _
    exact hin.seedExpanded.consistent (.blocks rfl (h.tierFits hphase (by decide) (by decide)) hcursor)
  | consume hphase bytes =>
    obtain ⟨hwhole, hblock⟩ := h.consuming hphase
    have hin := h.inHash hphase (by decide)
    obtain ⟨hcursor, -⟩ := hin.consumeBlock_toNat hblock bytes
    have hwhole' : (s.consumeBlock bytes).cursor.toNat % s.bs = 0 := by rw [hcursor, Nat.add_mod_right, hwhole]
    exact (hin.consumeBlock hblock bytes).consistent
      (.blocks rfl (h.tierFits hphase (by decide) (by decide)) hwhole')
  | drain hphase tail =>
    have hin := h.inHash hphase (by decide)
    exact (hin.drainBlock tail).consistent (.lanes (.inl rfl) (h.tierFits hphase (by decide) (by decide)) rfl)
  | busError hphase blk reads =>
    obtain ⟨p, hp, hphase⟩ : ∃ p, p ≠ phIdle ∧ s.phase = p :=
      hphase.elim (⟨_, by decide, ·⟩) (⟨_, by decide, ·⟩)
    have hin := h.inHash hphase hp
    exact consistent_of_idle rfl rfl hin.memory resErrBus rfl (by decide) hin.notFatal fun _ => hin.noDigest
  | diffuse hphase =>
    have hin := h.inHash hphase (by decide)
    exact hin.diffused.consistent
      (.lanes (.inr rfl) (h.tierFits hphase (by decide) (by decide)) (h.consumed (by rw [hphase])))
  | fold hphase =>
    have hin := h.inHash hphase (by decide)
    exact hin.folded.consistent
      (.halve rfl (h.tierFits hphase (by decide) (by decide)) (h.consumed (by rw [hphase]; decide)) rfl)
  | halve hphase =>
    have hin := h.inHash hphase (by decide)
    have hcount : s.halved.count = digestWords s.lwidth.toNat := by
      show (halveLoop (digestWords s.lwidth.toNat) s.count s.count s.p).1 = _
      rw [h.halving hphase, halveLoop_count ((contractHolds_iff s).1 hin.contract).1]
    exact hin.halved.consistent
      (.emit rfl (h.tierFits hphase (by decide) (by decide)) (h.consumed (by rw [hphase]; decide)) hcount)
  | emit hphase =>
    have hin := h.inHash hphase (by decide)
    exact consistent_of_idle rfl rfl hin.memory resOk rfl (by decide) hin.notFatal nofun

/-- What validation passes is the contract of the phase steps (44_block_driver.md R173, R174). -/
theorem inHash_accept {s : State} (h : Consistent s) (valid : s.hashValid = true) : InHash s.accept := by
  simp only [State.hashValid, Bool.and_eq_true, decide_eq_true_eq] at valid
  obtain ⟨⟨hwidth, htier⟩, hfits⟩ := valid
  have hprogress : (0 : Addr).toNat + s.len.toNat = s.len.toNat := Nat.zero_add _
  exact ⟨h.memory, rfl, rfl, h.notFatal, rfl, rfl, Bool.and_eq_true_iff.2 ⟨hwidth, htier⟩, hfits, hprogress⟩

theorem HostMove.consistent {s t : State} {e : Event} (m : HostMove s e t) (h : Consistent s) : Consistent t := by
  cases m with
  | dropped => exact { h with }
  | ignored => exact h
  | configured => exact { h with }
  | @rejected idle c r hr =>
    have hle : r.toNat ≤ 4 := by rcases hr with rfl | rfl <;> decide
    exact consistent_of_idle (h.phase_of_not_busy idle.1) idle.1 h.memory r rfl hle h.notFatal h.noDigest
  | computed idle =>
    exact consistent_of_idle (h.phase_of_not_busy idle.1) idle.1 h.memory resOk rfl (by decide) h.notFatal
      h.noDigest
  | accepted _ valid => exact (inHash_accept h valid).consistent (.seltier rfl rfl)
  | observed => exact { h with }
  | store a v =>
    rw [storeByte_frame]
    exact { h with memory := storeByte_wf s a v h.memory }
  | rst => exact consistent_applyReset h.memory

/-- Settles O48: each move of the engine takes a stage of a HASH to the next one, or ends the HASH; of the host's
actions only an accepted HASH begins one. -/
theorem everyStepKeepsConsistency : Obligations.EveryStepKeepsConsistency := by
  intro s t h hstep
  have hrest (rest : List Event) : Consistent { s with script := rest } := { h with }
  rcases step_inversion hstep with ⟨rest, _, m⟩ | ⟨_, rest, _, m⟩
  · exact m.consistent (hrest rest)
  · exact m.consistent (hrest rest)

/-- Settles O47: after reset no HASH is in progress. -/
theorem resetIsConsistent : Obligations.ResetIsConsistent :=
  consistent_applyReset (s := State.reset) reset_memory_wf

end Sys2Proof.Machine
end

section
/-!
PROOFS. What a step leaves of the flags, of RES and of the digest, read off the moves of the engine and of the host.
-/

namespace Sys2Proof.Machine

/-! ### What a move leaves unchanged -/

namespace EngineMove

variable {s t : State}

theorem perr_eq (m : EngineMove s t) : t.perr = s.perr := by cases m <;> rfl

theorem res_eq (m : EngineMove s t) : t.res = s.res := by cases m <;> rfl

theorem fatal_eq_or_cause (m : EngineMove s t) : t.fatal = s.fatal ∨ (t.fatal = true ∧ FatalCause s) := by
  cases m with
  | fatal cause => exact .inr ⟨rfl, cause⟩
  | _ => exact .inl rfl

theorem digest_eq_or_emit (m : EngineMove s t) :
    (t.dvalid = s.dvalid ∧ t.digest = s.digest) ∨ s.phase = phEmit := by
  cases m with
  | emit hphase => exact .inr hphase
  | _ => exact .inl ⟨rfl, rfl⟩

/-- BUSY falls in EMIT, by a bus error, or by the fatal state (10_state.md R29). -/
theorem busy_eq_or_end (m : EngineMove s t) : t.busy = s.busy ∨
    (t.busy = false ∧ ((s.phase = phEmit ∧ t.result = resOk) ∨
      ((s.phase = phConsuming ∨ s.phase = phDraining) ∧ t.result = resErrBus) ∨
      (t.fatal = true ∧ t.result = resErrFatal))) := by
  cases m with
  | fatal => exact .inr ⟨rfl, .inr (.inr ⟨rfl, rfl⟩)⟩
  | busError hphase => exact .inr ⟨rfl, .inr (.inl ⟨hphase, rfl⟩)⟩
  | emit hphase => exact .inr ⟨rfl, .inl ⟨hphase, rfl⟩⟩
  | _ => exact .inl rfl

end EngineMove

namespace HostMove

variable {s t : State} {e : Event}

theorem perr_eq_or_dropped (m : HostMove s e t) (he : e ≠ .rst) : t.perr = s.perr ∨
    (t.perr = true ∧ s.busy = true ∧ ∃ offset v, e = .write offset 4 v) := by
  cases m with
  | dropped hbusy offset v => exact .inr ⟨rfl, hbusy, offset, v, rfl⟩
  | store a v => rw [storeByte_frame]; exact .inl rfl
  | rst => exact absurd rfl he
  | _ => exact .inl rfl

/-- Reset clears PERR and FATAL (10_state.md R31). -/
theorem flags_of_rst (m : HostMove s .rst t) : t.perr = false ∧ t.fatal = false := by
  cases m with
  | observed he => exact absurd rfl he
  | rst => exact ⟨rfl, rfl⟩

theorem fatal_eq (m : HostMove s e t) (he : e ≠ .rst) : t.fatal = s.fatal := by
  cases m with
  | store a v => rw [storeByte_frame]
  | rst => exact absurd rfl he
  | _ => rfl

theorem res_eq_or_computed (m : HostMove s e t) (he : e ≠ .rst) : t.res = s.res ∨
    (s.idle ∧ ∃ c, e = .write 0 4 c ∧
      ((c = 1 ∧ t.res = mix s.opa s.opb) ∨ (c = 2 ∧ t.res = mix1 Config.mixConst s.opa))) := by
  cases m with
  | computed idle hr => exact .inr ⟨idle, _, rfl, hr⟩
  | store a v => rw [storeByte_frame]; exact .inl rfl
  | rst => exact absurd rfl he
  | _ => exact .inl rfl

/-- Of the host's actions only an accepted HASH touches BUSY and the digest (10_state.md R29, R30). -/
theorem hash_eq_or_accepted (m : HostMove s e t) (he : e ≠ .rst) :
    (t.busy = s.busy ∧ t.dvalid = s.dvalid ∧ t.digest = s.digest) ∨
    (e = .write 0 4 0x10 ∧ t = s.accept) := by
  cases m with
  | accepted => exact .inr ⟨rfl, rfl⟩
  | store a v => rw [storeByte_frame]; exact .inl ⟨rfl, rfl, rfl⟩
  | rst => exact absurd rfl he
  | _ => exact .inl ⟨rfl, rfl, rfl⟩

end HostMove

theorem ne_rst_of_notReset {s : State} {e : Event} {rest : List Event} (h : s.notReset)
    (hscript : s.script = e :: rest) : e ≠ .rst := by
  rintro rfl
  exact h (by rw [hscript]; rfl)

/-! ### The promises -/

/-- A flag that keeps its value neither rises nor falls. -/
theorem flag_of_eq {a b : Bool} (h : b = a) (c : Bool) {P : Prop} : a = c → b = !c → P := by
  subst h
  cases b <;> cases c <;> nofun

/-- The causes of the fatal state in the terms of 60_exceptions.md R250. -/
theorem FatalCause.broken_or_reserved {s : State} (cause : FatalCause s) :
    (1 ≤ s.phase.toNat ∧ s.phase.toNat ≤ 8 ∧ (legalWidth s.lwidth = false ∨ 5 ≤ s.ltier.toNat)) ∨
    (9 ≤ s.phase.toNat ∧ s.phase.toNat ≤ 14) ∨ 6 ≤ s.result.toNat ∨
    (s.phase = phEmit ∧ s.count ≠ s.lwidth.toNat / 32) := by
  rcases cause with ⟨⟨hlow, hhigh⟩, hbroken⟩ | ⟨hphase, hcount⟩ | hresult | hphase
  · have hillegal : legalWidth s.lwidth = false ∨ 5 ≤ s.ltier.toNat := by
      by_contra hlegal
      rw [not_or, Bool.not_eq_false, not_le] at hlegal
      have := (contractHolds_iff s).2 ⟨hlegal.1, by omega⟩
      simp [hbroken] at this
    exact .inl ⟨hlow, hhigh, hillegal⟩
  · exact .inr (.inr (.inr ⟨hphase, hcount⟩))
  · exact .inr (.inr (.inl hresult))
  · exact .inr (.inl hphase)

/-- Settles O23: no move of the engine touches PERR, no action of the host but RST touches FATAL, and each raises the
other flag only by its cause. -/
theorem stickyFlagsClearOnlyByReset : Obligations.StickyFlagsClearOnlyByReset := by
  intro s t hstep
  rcases step_inversion hstep with ⟨rest, hnext, m⟩ | ⟨e, rest, hscript, m⟩
  · have hperr : t.perr = s.perr := m.perr_eq
    refine ⟨fun _ => ⟨hperr.trans, fun h => ?_⟩, flag_of_eq hperr false, fun h h' => ?_⟩
    · rcases m.fatal_eq_or_cause with hfatal | ⟨hfatal, _⟩
      · exact hfatal.trans h
      · exact hfatal
    · rcases m.fatal_eq_or_cause with hfatal | ⟨_, cause⟩
      · exact flag_of_eq hfatal false h h'
      · have hcause := cause.broken_or_reserved
        exact ⟨⟨rest, hnext⟩, hcause⟩
  · by_cases he : e = .rst
    · subst he
      obtain ⟨hperr, hfatal⟩ := m.flags_of_rst
      exact ⟨fun hnot => absurd rfl (ne_rst_of_notReset hnot hscript), fun _ => flag_of_eq hperr false rfl,
        fun _ => flag_of_eq hfatal false rfl⟩
    · have hfatal : t.fatal = s.fatal := m.fatal_eq he
      refine ⟨fun _ => ⟨fun h => ?_, hfatal.trans⟩, fun h h' => ?_, flag_of_eq hfatal false⟩
      · rcases m.perr_eq_or_dropped he with hperr | ⟨hperr, _⟩
        · exact hperr.trans h
        · exact hperr
      · rcases m.perr_eq_or_dropped he with hperr | ⟨_, hbusy, offset, v, rfl⟩
        · exact flag_of_eq hperr false h h'
        · exact ⟨hbusy, offset, v, rest, hscript⟩

/-- Settles O24: no move of the engine touches RES, and of the host's actions only MIX and MIXC do. -/
theorem resIsWrittenByMixAndMixcOnly : Obligations.ResIsWrittenByMixAndMixcOnly := by
  intro s t hstep hnot hres
  rcases step_inversion hstep with ⟨rest, _, m⟩ | ⟨e, rest, hscript, m⟩
  · exact absurd m.res_eq hres
  · rcases m.res_eq_or_computed (ne_rst_of_notReset hnot hscript) with heq | ⟨⟨hbusy, hfatal⟩, c, rfl, hr⟩
    · exact absurd heq hres
    · exact ⟨hbusy, hfatal, c, rest, hscript, hr⟩

/-- Settles O25: in EMIT of a consistent state DVALID is 0, so a digest is lost only by the acceptance of a HASH. -/
theorem theDigestComesFromEmitOnly : Obligations.TheDigestComesFromEmitOnly := by
  intro s t hs hstep hnot
  rcases step_inversion hstep with ⟨rest, hnext, m⟩ | ⟨e, rest, hscript, m⟩
  · rcases m.digest_eq_or_emit with ⟨hdvalid, hdigest⟩ | hphase
    · exact ⟨flag_of_eq hdvalid false, fun h => .inl ⟨hdvalid.trans h, hdigest⟩⟩
    · refine ⟨fun _ _ => ⟨hphase, rest, hnext⟩, fun h => ?_⟩
      cases h.symm.trans (hs.inHash (p := phEmit) hphase (by decide)).dvalid
  · rcases m.hash_eq_or_accepted (ne_rst_of_notReset hnot hscript) with ⟨_, hdvalid, hdigest⟩ | ⟨rfl, rfl⟩
    · exact ⟨flag_of_eq hdvalid false, fun h => .inl ⟨hdvalid.trans h, hdigest⟩⟩
    · exact ⟨nofun, fun _ => .inr ⟨rfl, rfl, rest, hscript⟩⟩

/-- Settles O26: the engine only ends a HASH, and the host only begins one. -/
theorem busyFollowsTheHash : Obligations.BusyFollowsTheHash := by
  intro s t hstep hnot
  rcases step_inversion hstep with ⟨rest, hnext, m⟩ | ⟨e, rest, hscript, m⟩
  · rcases m.busy_eq_or_end with hbusy | ⟨hbusy, hend⟩
    · exact ⟨flag_of_eq hbusy false, flag_of_eq hbusy true⟩
    · exact ⟨fun _ h' => absurd h' (by simp [hbusy]), fun _ _ => ⟨⟨rest, hnext⟩, hend⟩⟩
  · rcases m.hash_eq_or_accepted (ne_rst_of_notReset hnot hscript) with ⟨hbusy, _, _⟩ | ⟨rfl, rfl⟩
    · exact ⟨flag_of_eq hbusy false, flag_of_eq hbusy true⟩
    · exact ⟨fun _ _ => ⟨rfl, rest, hscript⟩, nofun⟩

end Sys2Proof.Machine
end

section
/-!
PROOFS. The interface of the block: which step an action runs, what the registers hold and return, and reset.
-/

namespace Sys2Proof.Machine

/-! ### A step runs the decoded instruction -/

/-- Settles O4: the command itself drops what R245 drops, so the write of CMD is the command in every state. -/
theorem stepIssuesTheDecodedCommand : Obligations.StepIssuesTheDecodedCommand := by
  intro s c i rest hscript hi
  rw [step_of_script hscript, performEvent_write rfl]
  exact (writeReg_cmd _ c).trans (writeCmd_of_decode hi)

/-- Settles O5: with RESULT no reserved code, the turn looks at PHASE alone. -/
theorem stepRunsTheDecodedPhase : Obligations.StepRunsTheDecodedPhase := by
  intro s i rest hnext hresult hi
  rw [step_of_engineNext hnext]
  exact engineTurn_of_decode hresult hi

/-- Settles O6: the codes 0 and 15 name no step, and a reserved code of PHASE or RESULT is a broken state. -/
theorem engineTurnWithoutAPhaseStep : Obligations.EngineTurnWithoutAPhaseStep := by
  intro s rest hnext
  rw [step_of_engineNext hnext]
  exact ⟨fun hresult hrest => engineTurn_of_rest hresult hrest, fun hcode => engineTurn_of_reserved hcode⟩

/-! ### Fields side by side -/

theorem toNat_append_eq_add {m n : Nat} (x : BitVec m) (y : BitVec n) :
    (x ++ y).toNat = x.toNat * 2 ^ n + y.toNat := by
  rw [BitVec.toNat_append, ← Nat.shiftLeft_add_eq_or_of_lt y.isLt, Nat.shiftLeft_eq]

theorem getLsbD_eq_of_toNat {w i : Nat} {x : BitVec w} {b : Bool} (h : x.toNat / 2 ^ i % 2 = b.toNat) :
    x.getLsbD i = b := by
  rw [← BitVec.testBit_toNat, Nat.testBit_eq_decide_div_mod_eq, h]
  cases b <;> rfl

theorem extractLsb'_eq_of_toNat {w start len : Nat} {x : BitVec w} {y : BitVec len}
    (h : x.toNat / 2 ^ start % 2 ^ len = y.toNat) : x.extractLsb' start len = y := by
  refine BitVec.eq_of_toNat_eq ?_
  rw [BitVec.extractLsb'_toNat, Nat.shiftRight_eq_div_pow, h]

/-! ### Acceptance -/

/-- Two words side by side as one number (10_state.md R40, R41). -/
theorem word_append_toNat (hi lo : Word) : (hi ++ lo).toNat = hi.toNat * 2 ^ 32 + lo.toNat :=
  toNat_append_eq_add hi lo

theorem word_append_eq_ofNat (hi lo : Word) :
    hi ++ lo = BitVec.ofNat 64 (hi.toNat * 2 ^ 32 + lo.toNat) := by
  rw [← word_append_toNat, BitVec.ofNat_toNat, BitVec.setWidth_eq]

/-- Settles O9: the hypotheses are what validation checks, with BUF and LEN as the numbers that their halves hold. -/
theorem hashAcceptsAValidConfiguration : Obligations.HashAcceptsAValidConfiguration := by
  intro s hbusy hfatal hwidth htier hfits hdevice
  have hvalid : s.hashValid = true := by
    simp only [State.hashValid, legalTierRequest, State.buf, State.len, word_append_toNat, Bool.and_eq_true,
      decide_eq_true_eq]
    exact ⟨⟨(legalWidth_iff _).2 hwidth, htier⟩, hfits⟩
  rw [exec_hash_of_valid ⟨hbusy, hfatal⟩ hvalid hdevice, ← word_append_eq_ofNat, ← word_append_eq_ofNat]
  rfl

/-! ### Register writes -/

/-- A write at an aligned offset is a write of the register there. -/
theorem step_of_write {s : State} {offset : Nat} {v : Word} {rest : List Event}
    (hscript : s.script = .write offset 4 v :: rest) (haligned : offset % 4 = 0) :
    step s = writeReg { s with script := rest } (regAt offset) v := by
  rw [step_of_script hscript, performEvent_write haligned]

/-- A read at an aligned offset leaves the value of the register there in `rdata`. -/
theorem step_of_read {s : State} {offset : Nat} {rest : List Event}
    (hscript : s.script = .read offset 4 :: rest) (haligned : offset % 4 = 0) :
    step s = .next { s with script := rest, rdata := some (readReg { s with script := rest } (regAt offset)) } := by
  rw [step_of_script hscript, performEvent_read haligned]

theorem extractLsb'_zero_three (v : Word) : v.extractLsb' 0 3 = BitVec.ofNat 3 (v.toNat % 8) := by
  refine BitVec.eq_of_toNat_eq ?_
  simp

/-- Settles O15, register by register at its offset. -/
theorem registerWritesStoreTheValue : Obligations.RegisterWritesStoreTheValue := by
  intro s offset v rest hscript hbusy
  refine ⟨?seed, ?width, ?tierreq, ?buflo, ?bufhi, ?lenlo, ?lenhi, ?opa, ?opb⟩
  all_goals
    rintro rfl
    rw [step_of_write hscript rfl]
    simp [regAt, writeReg, hbusy, ← extractLsb'_zero_three]

/-- The registers that ignore a write while BUSY = 0 (10_state.md R46). -/
def ignoresWrites : Reg → Bool
  | .status | .res | .cap | .digest _ | .reserved => true
  | _ => false

theorem writeReg_of_ignoresWrites {s : State} {r : Reg} (hr : ignoresWrites r = true) (hbusy : s.busy = false)
    (v : Word) : writeReg s r v = .next s := by
  cases r <;> simp_all [ignoresWrites, writeReg]

/-- From 0x030 upward the map has CAP, the digest words and reserved offsets only (10_state.md R26). -/
theorem ignoresWrites_regAt {offset : Nat} (h : offset = 0x004 ∨ offset = 0x02C ∨ 0x030 ≤ offset) :
    ignoresWrites (regAt offset) = true := by
  fun_cases regAt offset <;> first | rfl | omega

theorem regAt_reserved {offset : Nat} (h : (0x034 ≤ offset ∧ offset < 0x080) ∨ 0x100 ≤ offset) :
    regAt offset = .reserved := by
  fun_cases regAt offset <;> first | rfl | omega

/-- Settles O16: the offsets it names hold registers that ignore writes, and reserved ones. -/
theorem readOnlyAndReservedOffsetsIgnoreWrites : Obligations.ReadOnlyAndReservedOffsetsIgnoreWrites := by
  intro s offset v rest haligned
  refine ⟨fun hscript hbusy hoffset => ?_, fun hscript hoffset => ?_⟩
  · rw [step_of_write hscript haligned]
    exact writeReg_of_ignoresWrites (s := { s with script := rest }) (ignoresWrites_regAt hoffset) hbusy v
  · rw [step_of_read hscript haligned, regAt_reserved hoffset]
    rfl

/-! ### Register reads -/

/-- The offsets of the digest words (10_state.md R26). -/
theorem regAt_digest {k : Nat} (hk : k < 32) : regAt (0x080 + 4 * k) = .digest ⟨k, hk⟩ := by
  fun_cases regAt (0x080 + 4 * k) <;> first | omega | simp

/-- The bits of CAP as a number (10_state.md R44). -/
theorem capWord_toNat (cap128 cap256 cap512 : Bool) :
    (capWord cap128 cap256 cap512).toNat = cap128.toNat + 2 * cap256.toNat + 4 * cap512.toNat := by
  cases cap128 <;> cases cap256 <;> cases cap512 <;> rfl

/-- Settles O17: the value is the one of the register that the map has at the offset. -/
theorem registerReadsReturnTheMap : Obligations.RegisterReadsReturnTheMap := by
  intro s offset rest hscript haligned
  refine ⟨readReg s (regAt offset), step_of_read hscript haligned, ?_⟩
  refine ⟨?cmd, ?status, ?seed, ?width, ?tierreq, ?buflo, ?bufhi, ?lenlo, ?lenhi, ?opa, ?opb, ?res, ?cap, ?digest⟩
  case tierreq =>
    rintro rfl
    exact BitVec.toNat_setWidth_of_le (by decide)
  case cap =>
    rintro rfl
    exact capWord_toNat _ _ _
  case digest =>
    rintro k hk rfl
    rw [regAt_digest hk]
    rfl
  all_goals
    rintro rfl
    rfl

/-- Settles O18: the shape of an access is looked at before its target. -/
theorem misshapenAccessIsRefused : Obligations.MisshapenAccessIsRefused := by
  intro s offset size v rest hscript hshape
  have hrefuse : accessWellFormed offset size ≠ true := by
    rw [Ne, accessWellFormed_iff]
    tauto
  rcases hscript with hscript | hscript
  · exact (step_of_script hscript).trans (if_neg hrefuse)
  · exact (step_of_script hscript).trans (if_neg hrefuse)

/-! ### STATUS -/

/-- STATUS as a number: each field at its place (10_state.md R28). -/
theorem statusWord_toNat (s : State) :
    s.statusWord.toNat = s.busy.toNat + 2 * s.dvalid.toNat + 4 * s.perr.toNat + 8 * s.fatal.toNat +
      16 * s.result.toNat + 256 * s.tier.toNat + 4096 * s.phase.toNat := by
  have h : s.statusWord.toNat = _ := toNat_append_eq_add _ _
  simp only [h, toNat_append_eq_add, BitVec.toNat_ofBool, BitVec.toNat_ofNat]
  omega

/-- Settles O19: no field reaches into the place of the next one. -/
theorem statusWordHasItsFields : Obligations.StatusWordHasItsFields := by
  intro s
  have h := statusWord_toNat s
  have hbusy := s.busy.toNat_le
  have hdvalid := s.dvalid.toNat_le
  have hperr := s.perr.toNat_le
  have hfatal := s.fatal.toNat_le
  have hresult := s.result.isLt
  have htier := s.tier.isLt
  have hphase := s.phase.isLt
  have hlow : (0 : BitVec 2).toNat = 0 := rfl
  have hhigh : (0 : BitVec 16).toNat = 0 := rfl
  refine ⟨statusWord_busy s, getLsbD_eq_of_toNat ?_, getLsbD_eq_of_toNat ?_, getLsbD_eq_of_toNat ?_,
    extractLsb'_eq_of_toNat ?_, extractLsb'_eq_of_toNat ?_, extractLsb'_eq_of_toNat ?_, extractLsb'_eq_of_toNat ?_,
    extractLsb'_eq_of_toNat ?_⟩ <;> omega

/-! ### Reset -/

/-- Settles O20: what RST leaves of the old state are the platform and the model's own fields. -/
theorem resetGivesTheTable : Obligations.ResetGivesTheTable := by
  intro s rest hscript
  refine ⟨_, step_of_script hscript, ?_⟩
  have hdigest (k : Nat) (_ : k < 32) : entry (Vector.replicate 32 (0 : Word)) k = 0 := by
    rw [entry_replicate, ite_self]
  have hstatus : State.reset.statusWord = 0 := by decide
  exact ⟨rfl, rfl, rfl, rfl, rfl, rfl, rfl, hstatus, rfl, rfl, rfl, rfl, rfl, rfl, rfl, rfl, rfl, rfl, hdigest,
    rfl, rfl⟩

/-! ### The diffusion passes keep the words above N -/

/-- The words with index ≥ `n` of the four lanes are equal: those that a command with N = `n` must not write (R22). -/
def LanesAgreeFrom (n : Nat) (g h : Lanes) : Prop :=
  ∀ l i, 1 ≤ l → l ≤ 4 → n ≤ i → g.word l i = h.word l i

theorem LanesAgreeFrom.trans {n : Nat} {f g h : Lanes} (e : LanesAgreeFrom n f g) (e' : LanesAgreeFrom n g h) :
    LanesAgreeFrom n f h :=
  fun l i hl hl' hi => (e l i hl hl' hi).trans (e' l i hl hl' hi)

theorem lanesAgreeFrom_lanesWith (n : Nat) (f : Nat → Nat → Word) (h : Lanes) :
    LanesAgreeFrom n (lanesWith n f h) h := by
  intro l i hl hl' hi
  rw [word_lanesWith n f h ⟨hl, hl'⟩, if_neg (by omega)]

theorem lanesAgreeFrom_setWord {n i : Nat} (hi : i < n) (l : Nat) (v : Word) (h : Lanes) :
    LanesAgreeFrom n (h.setWord l i v) h := by
  intro l' i' hl hl' hi'
  rw [word_setWord h l i v ⟨hl, hl'⟩, if_neg (by omega)]

theorem lanesAgreeFrom_set (n : Nat) (r : DiffuseRun) (slot : Slot) (v : Word) :
    LanesAgreeFrom n (r.set n slot v).lanes r.lanes := by
  cases slot with
  | word l i =>
    simp only [DiffuseRun.set]
    split
    next hi => exact lanesAgreeFrom_setWord hi _ v r.lanes
    · exact fun _ _ _ _ _ => rfl
  | temp k => exact fun _ _ _ _ _ => rfl

theorem lanesAgreeFrom_op (c : Word) (n : Nat) (r : DiffuseRun) (o : DiffuseOp) :
    LanesAgreeFrom n (r.op c n o).lanes r.lanes := by
  cases o with
  | accumulate dst src => exact lanesAgreeFrom_set n r dst _
  | copy dst src => exact lanesAgreeFrom_set n r dst _
  | mixWord l i =>
    simp only [DiffuseRun.op]
    split
    · exact fun _ _ _ _ _ => rfl
    · exact lanesAgreeFrom_set n r (.word l i) _

theorem lanesAgreeFrom_foldl_op (c : Word) (n : Nat) (ops : List DiffuseOp) (r : DiffuseRun) :
    LanesAgreeFrom n (ops.foldl (fun r o => r.op c n o) r).lanes r.lanes := by
  induction ops generalizing r with
  | nil => exact fun _ _ _ _ _ => rfl
  | cons o ops ih => exact (ih (r.op c n o)).trans (lanesAgreeFrom_op c n r o)

theorem lanesAgreeFrom_runPass (c : Word) (n : Nat) (ops : List DiffuseOp) (r : DiffuseRun) :
    LanesAgreeFrom n (runPass c n ops r).lanes r.lanes :=
  (lanesAgreeFrom_lanesWith n _ _).trans (lanesAgreeFrom_foldl_op c n ops { r with mixed := [] })

/-- Settles O38: the words below N by two runs side by side, the words from N upward operation by operation. -/
theorem diffusionReadsTheLaneWordsOnly : Obligations.DiffusionReadsTheLaneWordsOnly := by
  intro c prog n g h hgh
  exact ⟨lanesAgree_runProgram c prog hgh,
    (lanesAgreeFrom_runPass c n prog.pass2 _).trans (lanesAgreeFrom_runPass c n prog.pass1 _)⟩

end Sys2Proof.Machine
end

section
/-!
PROOFS. The log of port reads: how often its accesses cover an address, the accesses that CONSUME and DRAIN add to it
(20_memory.md R68, R69), and that a HASH covers each byte of its buffer once (R70).
-/

namespace Sys2Proof.Machine

/-! ### Alignment -/

/-- The alignment tests of the vector tiers are remainders (46_tier_selector.md R232): the mask `8 * 2 ^ t - 1` keeps
the low `t + 3` bits. -/
theorem tierAligned_iff {t : Nat} (h0 : t ≠ 0) (h : t ≤ 3) (addr : Addr) :
    tierAligned t addr = true ↔ addr.toNat % (8 * 2 ^ t) = 0 := by
  have hsize : 8 * 2 ^ t = 2 ^ (t + 3) := by rw [Nat.pow_add, Nat.mul_comm]
  have hlt : 2 ^ (t + 3) < 2 ^ 64 := Nat.pow_lt_pow_right (by decide) (by omega)
  have hmask : (addr &&& BitVec.ofNat 64 (2 ^ (t + 3) - 1)).toNat = addr.toNat % 2 ^ (t + 3) := by
    rw [BitVec.toNat_and, BitVec.toNat_ofNat, Nat.mod_eq_of_lt (by omega), Nat.and_two_pow_sub_one_eq_mod]
  rw [hsize, ← hmask]
  simp [tierAligned, h0, hsize, BitVec.toNat_eq]

/-- The bytes of an access of a vector tier (20_memory.md R69). -/
theorem tierWords_of_ne_zero {t : BitVec 2} (h : t ≠ 0) : 4 * tierWords t = 8 * 2 ^ t.toNat := by
  revert t
  decide

/-- A block is a whole number of accesses of every tier (20_memory.md R69). -/
theorem access_dvd_bs {s : State} (contract : s.contractHolds = true) (t : BitVec 2) : 4 * tierWords t ∣ s.bs := by
  revert t
  rcases bs_of_contract contract with e | e | e <;> rw [e] <;> decide

/-! ### Covering a run of addresses once -/

/-- The accesses read each of the `n` bytes from `lo` exactly once and no other address. -/
def CoversOnce (rs : List PortRead) (lo n : Nat) : Prop :=
  ∀ a, (rs.filter fun r => r.covers a).length = if lo ≤ a ∧ a < lo + n then 1 else 0

theorem coversOnce_nil (lo : Nat) : CoversOnce [] lo 0 := fun a => by
  rw [if_neg (by omega)]
  rfl

theorem coversOnce_singleton (addr size : Nat) : CoversOnce [{ address := addr, size := size }] addr size := fun a => by
  by_cases h : addr ≤ a ∧ a < addr + size <;> simp [PortRead.covers, h]

/-- Two runs side by side. -/
theorem CoversOnce.append {rs rs' : List PortRead} {lo n n' : Nat} (h : CoversOnce rs lo n)
    (h' : CoversOnce rs' (lo + n) n') : CoversOnce (rs ++ rs') lo (n + n') := fun a => by
  rw [List.filter_append, List.length_append, h a, h' a]
  split_ifs <;> omega

theorem portReads_succ (addr size k : Nat) (hsize : 0 < size) :
    portReads addr size (size * (k + 1)) =
      portReads addr size (size * k) ++ [{ address := addr + size * k, size := size }] := by
  simp [portReads, Nat.mul_div_cancel_left _ hsize, List.range_succ, Nat.mul_comm]

/-- Reading a whole number of accesses covers the run once (20_memory.md R70), by induction on their number. -/
theorem coversOnce_portReads (addr : Nat) {size n : Nat} (hsize : 0 < size) (hdvd : size ∣ n) :
    CoversOnce (portReads addr size n) addr n := by
  obtain ⟨k, rfl⟩ := hdvd
  induction k with
  | zero => simpa [portReads] using coversOnce_nil addr
  | succ k ih =>
    rw [portReads_succ addr size k hsize, Nat.mul_succ]
    exact ih.append (coversOnce_singleton _ size)

theorem coversOnce_block {s : State} (contract : s.contractHolds = true) :
    CoversOnce (portReads s.readAddress (4 * tierWords s.tier) s.bs) s.readAddress s.bs := by
  have hsize : ∀ t, 0 < 4 * tierWords t := by decide
  exact coversOnce_portReads _ (hsize s.tier) (access_dvd_bs contract s.tier)

theorem coversOnce_tail (s : State) :
    CoversOnce (portReads s.readAddress 1 s.remain.toNat) s.readAddress s.remain.toNat :=
  coversOnce_portReads _ Nat.one_pos (Nat.one_dvd _)

/-! ### A whole HASH -/

/-- The whole blocks and the tail add accesses to the log that cover the bytes left once, by recursion on REMAIN
(20_memory.md R70; 44_block_driver.md R176). -/
theorem Absorbing.run_reads {s : State} (h : Absorbing s) :
    ∃ t new, Sys2Proof.core.run (s.remain.toNat / s.bs + 1) s = .next t ∧
      t.reads = s.reads ++ new ∧ CoversOnce new s.readAddress s.remain.toNat := by
  have hbs : 0 < s.bs := by rcases bs_of_contract h.contract with e | e | e <;> omega
  rcases Nat.lt_or_ge s.remain.toNat s.bs with htail | hblock
  · rw [Nat.div_eq_of_lt htail]
    exact ⟨_, _, run_succ_of_step (h.step_drain htail) 0, rfl, coversOnce_tail s⟩
  · have hremain := h.remain_consumeBlock hblock (bytesAt s.mem s.readAddress s.bs)
    obtain ⟨t, new, hrun, hreads, hcovers⟩ := (h.consumeBlock hblock _).run_reads
    rw [hremain] at hrun hcovers
    rw [h.readAddress_consumeBlock hblock] at hcovers
    refine ⟨t, portReads s.readAddress (4 * tierWords s.tier) s.bs ++ new, ?_, ?_, ?_⟩
    · rw [Nat.div_eq_sub_div hbs hblock, run_succ_of_step (h.step_consume hblock)]
      exact hrun
    · rw [hreads, ← List.append_assoc]
      rfl
    · rw [← Nat.add_sub_cancel' hblock]
      exact (coversOnce_block h.contract).append hcovers
termination_by s.remain.toNat
decreasing_by omega

/-- An issued HASH is the run through its blocks and its tail, and the finalizer after it (44_block_driver.md R171). -/
theorem HashIssued.run_finalized {s : State} (h : HashIssued s) :
    ∃ t, Sys2Proof.core.run (s.started.remain.toNat / s.started.bs + 1) s.started = .next t ∧
      Sys2Proof.core.run (hashSteps s) s = .next t.finalized := by
  obtain ⟨blk, cursor, reads, hblocks⟩ := h.absorbing.run_eq
  refine ⟨_, hblocks, ?_⟩
  have hsteps : hashSteps s = 2 + ((s.started.remain.toNat / s.started.bs + 1) + 4) + 1 := by
    simp only [hashSteps, started_remain, started_bs]
    omega
  rw [hsteps, run_succ_of_step h.step_eq, run_add (run_seltier_seedx h.midHash_launched rfl)]
  exact (run_add hblocks 4).trans (run_finalizer (h.absorbing.midHash_absorbed _ blk cursor reads) rfl)

/-- Settles O54: the log is empty when the HASH is accepted, the blocks and the tail cover the buffer once, and the
finalizer adds nothing. -/
theorem hashReadsEachBufferByteOnce : Obligations.HashReadsEachBufferByteOnce := by
  intro s h
  obtain ⟨t, hblocks, hrun⟩ := h.run_finalized
  obtain ⟨u, new, hblocks', hreads, hcovers⟩ := h.absorbing.run_reads
  obtain rfl : t = u := Host.Outcome.next.inj (hblocks.symm.trans hblocks')
  have hlog : t.finalized.reads = new := hreads
  exact ⟨t.finalized, hrun, fun a => hlog ▸ hcovers a⟩

/-! ### The accesses of one step -/

/-- What CONSUME adds to the log: accesses of the block, all of them if it is backed (20_memory.md R69; R249). -/
theorem consume_reads {s t : State} (contract : s.contractHolds = true) (h : exec .consume s = .next t) :
    ∃ new, t.reads = s.reads ++ new ∧
      (∀ r ∈ new, r ∈ portReads s.readAddress (4 * tierWords s.tier) s.bs) ∧
      (backedRun s.mem s.readAddress s.bs = true → CoversOnce new s.readAddress s.bs) := by
  by_cases hbacked : backedRun s.mem s.readAddress s.bs = true
  · cases (exec_consume_of_backed contract hbacked).symm.trans h
    exact ⟨_, rfl, fun r hr => hr, fun _ => coversOnce_block contract⟩
  · have heffect := (phaseStep_of_contract contract _).symm.trans h
    split at heffect <;> cases heffect
    · exact ⟨_, rfl, fun r hr => hr, fun e => absurd e hbacked⟩
    · exact ⟨_, rfl, fun r hr => mem_of_mem_completeBelow hr, fun e => absurd e hbacked⟩

/-- What DRAIN adds to the log: accesses of one byte, all of the tail's if it is backed (20_memory.md R68; R249). -/
theorem drain_reads {s t : State} (contract : s.contractHolds = true) (h : exec .drain s = .next t) :
    ∃ new, t.reads = s.reads ++ new ∧ (∀ r ∈ new, ∃ n, r ∈ portReads s.readAddress 1 n) ∧
      (backedRun s.mem s.readAddress s.remain.toNat = true → CoversOnce new s.readAddress s.remain.toNat) := by
  by_cases hbacked : backedRun s.mem s.readAddress s.remain.toNat = true
  · cases (exec_drain_of_backed contract hbacked).symm.trans h
    exact ⟨_, rfl, fun r hr => ⟨_, hr⟩, fun _ => coversOnce_tail s⟩
  · have heffect := (phaseStep_of_contract contract _).symm.trans h
    split at heffect <;> cases heffect
    · exact ⟨_, rfl, fun r hr => ⟨_, hr⟩, fun e => absurd e hbacked⟩
    · exact ⟨_, rfl, fun r hr => ⟨_, hr⟩, fun e => absurd e hbacked⟩

/-- In a vector tier the block to consume begins at a multiple of the access: the buffer does, and whole blocks have
been consumed (20_memory.md R68). -/
theorem access_dvd_readAddress {s : State} (contract : s.contractHolds = true) (htier : s.tierFits)
    (hwhole : s.cursor.toNat % s.bs = 0) (hvector : s.tier ≠ 0) : 4 * tierWords s.tier ∣ s.readAddress := by
  have htier0 : s.tier.toNat ≠ 0 := fun e => hvector (BitVec.eq_of_toNat_eq e)
  have htier3 : s.tier.toNat ≤ 3 := Nat.le_of_lt_succ s.tier.isLt
  have hlbuf : 4 * tierWords s.tier ∣ s.lbuf.toNat := by
    rw [tierWords_of_ne_zero hvector]
    exact Nat.dvd_of_mod_eq_zero ((tierAligned_iff htier0 htier3 s.lbuf).1 htier)
  exact Nat.dvd_add hlbuf ((access_dvd_bs contract s.tier).trans (Nat.dvd_of_mod_eq_zero hwhole))

/-- Settles O36: the added accesses are those of the block, or of the tail, in the tier's size or byte by byte. -/
theorem portAccessesFollowTheTier : Obligations.PortAccessesFollowTheTier := by
  intro s t h
  constructor
  · intro hphase hexec
    have contract := (h.inHash hphase (by decide)).contract
    obtain ⟨new, hreads, hmem, hcovers⟩ := consume_reads contract hexec
    refine ⟨new, hreads, fun r hr => ?_, hcovers⟩
    obtain ⟨q, -, rfl⟩ := mem_portReads.1 (hmem r hr)
    refine ⟨rfl, fun hvector => Nat.mod_eq_zero_of_dvd (Nat.dvd_add ?_ (Nat.dvd_mul_left _ q))⟩
    exact access_dvd_readAddress contract (h.tierFits hphase (by decide) (by decide)) (h.consuming hphase).1 hvector
  · intro hphase hexec
    obtain ⟨new, hreads, hmem, hcovers⟩ := drain_reads (h.inHash hphase (by decide)).contract hexec
    refine ⟨new, hreads, fun r hr => ?_, hcovers⟩
    obtain ⟨n, hn⟩ := hmem r hr
    obtain ⟨q, -, rfl⟩ := mem_portReads.1 hn
    rfl

end Sys2Proof.Machine
end

section
/-!
PROOFS. The buffer memory and what reads it: no instruction writes it (20_memory.md R61), the order of its bytes in
the block words (R63), the tier that its address selects (R66), a racing store (R75), devices (R71), and what the
phase steps see of it (R70).
-/

namespace Sys2Proof.Machine

/-! ### What no instruction writes -/

/-- `t` differs from `s` at most in what the block itself may write: STATUS, RES and DIGEST, the sequencer, the lanes,
the hidden registers, and the model's race record, count of HASH commands and log of port reads. -/
def WritesOutputsOnly (s t : State) : Prop :=
  t = { s with
    res := t.res, digest := t.digest
    busy := t.busy, dvalid := t.dvalid, perr := t.perr, fatal := t.fatal, result := t.result, tier := t.tier
    phase := t.phase, cursor := t.cursor, remain := t.remain, h := t.h
    lseed := t.lseed, lwidth := t.lwidth, ltier := t.ltier, lbuf := t.lbuf, llen := t.llen
    seedw := t.seedw, blk := t.blk, p := t.p, count := t.count
    raced := t.raced, draws := t.draws, reads := t.reads }

/-- A command writes the outputs only, if its effect does: a dropped one sets PERR or nothing. -/
theorem writesOutputsOnly_command {s t : State} {effect : Result} (h : commandStep s effect = .next t)
    (heffect : effect = .next t → WritesOutputsOnly s t) : WritesOutputsOnly s t := by
  rcases commandStep_cases s effect with ⟨_, e⟩ | ⟨_, _, e⟩ | ⟨_, _, e⟩ <;> rw [e] at h
  · cases h
    rfl
  · cases h
    rfl
  · exact heffect h

/-- A phase step writes the outputs only, if its effect does: a broken contract sets fields of STATUS. -/
theorem writesOutputsOnly_phase {s t : State} {effect : Result} (h : phaseStep s effect = .next t)
    (heffect : effect = .next t → WritesOutputsOnly s t) : WritesOutputsOnly s t := by
  rcases phaseStep_cases s effect with ⟨_, e⟩ | ⟨_, e⟩ <;> rw [e] at h
  · cases h
    rfl
  · exact heffect h

theorem writesOutputsOnly_exec {i : Instr} {s t : State} (h : exec i s = .next t) : WritesOutputsOnly s t := by
  cases i with
  | mix => exact writesOutputsOnly_command h (by rintro ⟨⟩; rfl)
  | mixc => exact writesOutputsOnly_command h (by rintro ⟨⟩; rfl)
  | hash =>
    refine writesOutputsOnly_command h fun heffect => ?_
    split_ifs at heffect <;> cases heffect <;> rfl
  | seltier => exact writesOutputsOnly_phase h (by rintro ⟨⟩; rfl)
  | seedx => exact writesOutputsOnly_phase h (by rintro ⟨⟩; rfl)
  | consume =>
    refine writesOutputsOnly_phase h fun heffect => ?_
    split at heffect <;> cases heffect <;> rfl
  | drain =>
    refine writesOutputsOnly_phase h fun heffect => ?_
    split at heffect <;> cases heffect <;> rfl
  | diffuse => exact writesOutputsOnly_phase h (by rintro ⟨⟩; rfl)
  | fold => exact writesOutputsOnly_phase h (by rintro ⟨⟩; rfl)
  | halve => exact writesOutputsOnly_phase h (by rintro ⟨⟩; rfl)
  | emit =>
    refine writesOutputsOnly_phase h fun heffect => ?_
    split_ifs at heffect <;> cases heffect <;> rfl

/-- Settles O21: no arm of `exec` has a store, and none writes a register of the host or the platform. -/
theorem instructionsWriteNoMemoryAndNoOperand : Obligations.InstructionsWriteNoMemoryAndNoOperand := by
  intro i s t h
  have hframe := writesOutputsOnly_exec h
  exact ⟨fun a => by rw [hframe], hframe⟩

/-! ### The selected tier -/

/-- The bound that `selectTier` starts from, by what characterises it: the widest capable tier for Auto, the pinned
tier otherwise (46_tier_selector.md R232). -/
theorem tierUpperBound_eq {c : Capabilities} {req upper : Nat}
    (hauto : req = 0 → upper ≤ 3 ∧ c.capable upper = true ∧ ∀ t, t ≤ 3 → c.capable t = true → t ≤ upper)
    (hpinned : req ≠ 0 → upper + 1 = req) : tierUpperBound c req = upper := by
  unfold tierUpperBound
  split
  next hreq =>
    obtain ⟨hle, hcapable, hwidest⟩ := hauto hreq
    obtain ⟨hle', hcapable', hwidest'⟩ := largestTier_spec c.capable rfl 3
    exact Nat.le_antisymm (hwidest _ hle' hcapable') (hwidest' _ hle hcapable)
  next hreq =>
    have := hpinned hreq
    omega

/-- Settles O27: the search from the bound downwards stops at the widest tier that passes both tests. -/
theorem selectTierIsTheWidestCapableAligned : Obligations.SelectTierIsTheWidestCapableAligned := by
  intro c req addr upper hreq hauto hpinned
  obtain ⟨-, hcapable, haligned⟩ := selectTier_spec c addr hreq
  obtain ⟨hle, -, hwidest⟩ :=
    largestTier_spec (fun t => c.capable t && tierAligned t addr) rfl (tierUpperBound c req)
  rw [tierUpperBound_eq hauto hpinned] at hle hwidest
  have hselect : selectTier c req addr = largestTier (fun t => c.capable t && tierAligned t addr) upper := by
    rw [selectTier, tierUpperBound_eq hauto hpinned]
  refine ⟨hselect ▸ hle, hcapable, haligned, fun t ht hc ha => hselect ▸ hwidest t ht (by simp [hc, ha]),
    tierAligned_iff (by decide) (by decide) addr, tierAligned_iff (by decide) (by decide) addr,
    tierAligned_iff (by decide) (by decide) addr, rfl, ?_⟩
  simp [Capabilities.capable, capabilities]

/-! ### The byte order -/

/-- The byte at the lowest address has the least weight (20_memory.md R63). -/
theorem le32_toNat (b0 b1 b2 b3 : Byte) :
    (le32 b0 b1 b2 b3).toNat = b0.toNat + 2 ^ 8 * b1.toNat + 2 ^ 16 * b2.toNat + 2 ^ 24 * b3.toNat := by
  simp only [le32, toNat_append_eq_add]
  omega

/-- Settles O32, by induction on the words of the run: four bytes make the first one. -/
theorem blockWordsAreLittleEndian : Obligations.BlockWordsAreLittleEndian := by
  intro bytes k hk
  induction k generalizing bytes with
  | zero =>
    match bytes, hk with
    | b0 :: b1 :: b2 :: b3 :: _, _ => exact le32_toNat b0 b1 b2 b3
  | succ k ih =>
    match bytes, hk with
    | _ :: _ :: _ :: _ :: rest, hk =>
      simp only [List.length_cons] at hk
      exact ih rest (by omega)

/-! ### A racing store -/

theorem oldValues_cons (c : Host.Cell) (raced : List Host.Cell) (a : Nat) :
    oldValues (c :: raced) a = if c.1 = a then c.2 :: oldValues raced a else oldValues raced a := by
  by_cases h : c.1 = a <;> simp [oldValues, h]

/-- A store to a backed byte while BUSY = 1 remembers the value it replaces (20_memory.md R75). -/
theorem storeByte_of_busy {s : State} {a : Nat} {old : Byte} (hbusy : s.busy = true)
    (hread : s.mem.read a = some old) (v : Byte) :
    s.storeByte a v = { s with mem := s.mem.write a v, raced := (a, old) :: s.raced } := by
  simp [State.storeByte, hread, hbusy]

/-- Settles O50: the engine chooses among the new value, the one it replaced and the ones before, and the record of
another byte stays as it is. -/
theorem aRacedReadReturnsOldOrNew : Obligations.ARacedReadReturnsOldOrNew := by
  intro s a v old hbusy hread
  rw [storeByte_of_busy hbusy hread]
  constructor
  · have hnew : (s.mem.write a v).read a = some v := by rw [read_write_same, hread, Option.map_some]
    refine ⟨racedValue v (old :: oldValues s.raced a) (Config.raceChoice s.draws a), ?_, ?_⟩
    · simp [State.bufferByte, hnew, oldValues_cons]
    · simpa using racedValue_mem v (old :: oldValues s.raced a) (Config.raceChoice s.draws a)
  · intro a' hne
    simp [State.bufferByte, read_write_of_ne _ _ hne, oldValues_cons, hne.symm]

/-! ### What the phase steps see of the memory -/

/-- The state with another buffer memory. -/
def State.withMemory (s : State) (m : Memory) : State := { s with mem := m }

theorem bufferByte_withMemory {s : State} {m : Memory} {a : Nat} (h : m.read a = s.mem.read a) :
    (s.withMemory m).bufferByte a = s.bufferByte a := by
  simp only [State.bufferByte, State.withMemory, h]

/-- A read of a run sees the bytes of the run only (20_memory.md R62). -/
theorem readBuffer_withMemory {s : State} {m : Memory} {a n : Nat}
    (h : ∀ x, a ≤ x → x < a + n → m.read x = s.mem.read x) : (s.withMemory m).readBuffer a n = s.readBuffer a n := by
  induction n generalizing a with
  | zero => rfl
  | succ n ih =>
    have hfirst := bufferByte_withMemory (h a (by omega) (by omega))
    have hrest := ih (a := a + 1) fun x _ _ => h x (by omega) (by omega)
    simp only [State.readBuffer, hfirst, hrest]

/-- Where the first result is a next state, the second is that state with the memory `m`. -/
def SameUpToMemory (m : Memory) (r r' : Result) : Prop := ∀ t, r = .next t → r' = .next (t.withMemory m)

theorem sameUpToMemory_next {m : Memory} {u u' : State} (h : u' = u.withMemory m) :
    SameUpToMemory m (.next u) (.next u') := by
  rintro _ ⟨⟩
  rw [h]

/-- The contract of a phase step is no matter of the memory. -/
theorem sameUpToMemory_phaseStep {s : State} {m : Memory} {effect effect' : Result}
    (h : SameUpToMemory m effect effect') :
    SameUpToMemory m (phaseStep s effect) (phaseStep (s.withMemory m) effect') := by
  have hcontract : (s.withMemory m).contractHolds = s.contractHolds := rfl
  unfold phaseStep
  rw [hcontract]
  split
  · exact h
  · exact sameUpToMemory_next rfl

theorem sameUpToMemory_consume {s : State} {m : Memory}
    (h : ∀ x, s.readAddress ≤ x → x < s.readAddress + s.bs → m.read x = s.mem.read x) :
    SameUpToMemory m (exec .consume s) (exec .consume (s.withMemory m)) := by
  refine sameUpToMemory_phaseStep ?_
  have hread : (s.withMemory m).readBuffer (s.withMemory m).readAddress (s.withMemory m).bs =
      s.readBuffer s.readAddress s.bs := readBuffer_withMemory h
  rw [hread]
  cases s.readBuffer s.readAddress s.bs with
  | data bytes => exact sameUpToMemory_next rfl
  | busError a before => exact sameUpToMemory_next rfl

theorem sameUpToMemory_drain {s : State} {m : Memory}
    (h : ∀ x, s.readAddress ≤ x → x < s.readAddress + s.remain.toNat → m.read x = s.mem.read x) :
    SameUpToMemory m (exec .drain s) (exec .drain (s.withMemory m)) := by
  refine sameUpToMemory_phaseStep ?_
  have hread : (s.withMemory m).readBuffer (s.withMemory m).readAddress (s.withMemory m).remain.toNat =
      s.readBuffer s.readAddress s.remain.toNat := readBuffer_withMemory h
  rw [hread]
  cases s.readBuffer s.readAddress s.remain.toNat with
  | data tail => exact sameUpToMemory_next rfl
  | busError a before => exact sameUpToMemory_next rfl

theorem sameUpToMemory_emit (s : State) (m : Memory) :
    SameUpToMemory m (exec .emit s) (exec .emit (s.withMemory m)) := by
  refine sameUpToMemory_phaseStep ?_
  change SameUpToMemory m _ (if s.count = digestWords s.lwidth.toNat then _ else _)
  split_ifs <;> exact sameUpToMemory_next rfl

/-- The bytes left to consume lie in the latched buffer (10_state.md R25). -/
theorem InHash.inBuffer {s : State} (h : InHash s) {n x : Nat} (hn : n ≤ s.remain.toNat) (hlow : s.readAddress ≤ x)
    (hhigh : x < s.readAddress + n) : s.lbuf.toNat ≤ x ∧ x < s.lbuf.toNat + s.llen.toNat := by
  have hprogress := h.progress
  unfold State.readAddress at hlow hhigh
  omega

/-- Settles O55: CONSUME and DRAIN read bytes left of the latched buffer, and no other phase step reads any. -/
theorem phaseStepsIgnoreMemoryOutsideTheBuffer : Obligations.PhaseStepsIgnoreMemoryOutsideTheBuffer := by
  intro s t m i h hi hmem
  suffices hsame : SameUpToMemory m (exec i s) (exec i (s.withMemory m)) from hsame t
  rcases decodePhase_ok hi with ⟨_, rfl⟩ | ⟨_, rfl⟩ | ⟨hphase, rfl⟩ | ⟨hphase, rfl⟩ | ⟨_, rfl⟩ | ⟨_, rfl⟩ |
    ⟨_, rfl⟩ | ⟨_, rfl⟩
  · exact sameUpToMemory_phaseStep (sameUpToMemory_next rfl)
  · exact sameUpToMemory_phaseStep (sameUpToMemory_next rfl)
  · refine sameUpToMemory_consume fun x hlow hhigh => ?_
    obtain ⟨hbuf, hlen⟩ := (h.inHash hphase (by decide)).inBuffer (h.consuming hphase).2 hlow hhigh
    exact hmem x hbuf hlen
  · refine sameUpToMemory_drain fun x hlow hhigh => ?_
    obtain ⟨hbuf, hlen⟩ := (h.inHash hphase (by decide)).inBuffer le_rfl hlow hhigh
    exact hmem x hbuf hlen
  · exact sameUpToMemory_phaseStep (sameUpToMemory_next rfl)
  · exact sameUpToMemory_phaseStep (sameUpToMemory_next rfl)
  · exact sameUpToMemory_phaseStep (sameUpToMemory_next rfl)
  · exact sameUpToMemory_emit s m

/-! ### Devices -/

/-- A byte of a device region in the buffer is a device in the buffer (20_memory.md R71). -/
theorem deviceInBuffer_of_mem {s : State} {r : Region} {a : Nat} (hr : r ∈ s.devices) (hbase : r.base ≤ a)
    (hsize : a < r.base + r.size) (hbuf : s.buf.toNat ≤ a) (hlen : a < s.buf.toNat + s.len.toNat) :
    s.deviceInBuffer = true := by
  refine List.any_eq_true.2 ⟨r, hr, ?_⟩
  simp only [Region.meets, decide_eq_true_eq]
  omega

/-- Settles O11: validation passes, and the device is found. -/
theorem hashOverADeviceIsRefused : Obligations.HashOverADeviceIsRefused := by
  intro s r a hbusy hfatal hvalid hr hbase hsize hbuf hlen
  have hdevice := deviceInBuffer_of_mem hr hbase hsize hbuf hlen
  refine (commandStep_of_idle hbusy hfatal _).trans ?_
  rw [if_pos hvalid, if_pos hdevice]

end Sys2Proof.Machine
end

section
/-!
PROOFS. The encoding (30_encoding.md R90 to R95): the command words and the phase codes against the table of opcodes.
-/

namespace Sys2Proof.Machine

/-! ### Command words -/

/-- The reserved field is bits 31:8 (30_encoding.md R90). -/
theorem reservedField_eq_zero_iff (c : Word) : reservedField c = 0#24 ↔ c.toNat < 256 := by
  refine ⟨fun h => ?_, fun h => extractLsb'_eq_of_toNat ?_⟩
  · rw [toNat_eq_opcode h]
    exact (opcodeField c).isLt
  · have hhigh : c.toNat / 2 ^ 8 = 0 := Nat.div_eq_of_lt h
    rw [hhigh]
    rfl

/-- The reserved bits are looked at before the opcode (30_encoding.md R91, R95). -/
theorem decodeCommand_error {c : Word} {r : Reject} (h : decode (.command c) = .error r) :
    r = if 256 ≤ c.toNat then .reservedBits else .unknownOpcode := by
  simp only [decode, decodeCommand] at h
  split at h
  next hreserved =>
    cases h
    rw [Ne, reservedField_eq_zero_iff, not_lt] at hreserved
    rw [if_pos hreserved]
  next hreserved =>
    rw [Ne, not_not, reservedField_eq_zero_iff] at hreserved
    rw [if_neg (by omega)]
    split_ifs at h
    cases h
    rfl

/-- Every code decodes to the instruction that it encodes, whichever instruction that is. -/
theorem decode_encode (i : Instr) : decode (encode i) = .ok i := by cases i <;> rfl

theorem eq_encode_of_decode {code : Code} {i : Instr} (h : decode code = .ok i) : code = encode i := by
  cases code with
  | command c => rcases command_of_decode h with ⟨rfl, rfl⟩ | ⟨rfl, rfl⟩ | ⟨rfl, rfl⟩ <;> rfl
  | phase p =>
    rcases decodePhase_ok h with ⟨rfl, rfl⟩ | ⟨rfl, rfl⟩ | ⟨rfl, rfl⟩ | ⟨rfl, rfl⟩ | ⟨rfl, rfl⟩ | ⟨rfl, rfl⟩ |
      ⟨rfl, rfl⟩ | ⟨rfl, rfl⟩ <;> rfl

/-- Settles O2: each of the eleven codes the decoder accepts is the encoder's. -/
theorem decodeInvertsEncode : Obligations.DecodeInvertsEncode := by
  intro i code
  refine ⟨eq_encode_of_decode, ?_⟩
  rintro rfl
  exact decode_encode i

/-- Settles O1: the three words are the codes of the three commands, and a word that is none of them names no
instruction. -/
theorem commandDecodingIsTotalAndExact : Obligations.CommandDecodingIsTotalAndExact := by
  intro c
  have hcode (i : Instr) {w : Word} (hw : encode i = .command w) : decode (.command c) = .ok i ↔ c = w := by
    rw [decodeInvertsEncode i, hw, Code.command.injEq]
  refine ⟨hcode .mix rfl, hcode .mixc rfl, hcode .hash rfl, fun hmix hmixc hhash => ?_⟩
  cases hd : decode (.command c) with
  | ok i =>
    rcases command_of_decode hd with ⟨h, _⟩ | ⟨h, _⟩ | ⟨h, _⟩
    · exact absurd h hmix
    · exact absurd h hmixc
    · exact absurd h hhash
  | error r => rw [decodeCommand_error hd]

/-! ### The rows of the table -/

/-- A row of 32 bits is a command word. -/
theorem decodeTableWord_command {w : Nat} {i : Instr} (hw : w < 2 ^ 32) (hi : encode i = .command (BitVec.ofNat 32 w)) :
    decodeTableWord 32 w = some i := by
  have hfits : ¬ 2 ^ 32 ≤ w := by omega
  have hdecode : decode (.command (BitVec.ofNat 32 w)) = .ok i := hi ▸ decode_encode i
  rw [decodeTableWord, if_neg hfits, if_neg (by decide), if_pos (by decide), hdecode]
  rfl

/-- A row of one byte is a phase code. -/
theorem decodeTableWord_phase {w : Nat} {i : Instr} (hw : w < 16) (hi : encode i = .phase (BitVec.ofNat 4 w)) :
    decodeTableWord 8 w = some i := by
  have hfits : ¬ 2 ^ 8 ≤ w := by omega
  have hdecode : decode (.phase (BitVec.ofNat 4 w)) = .ok i := hi ▸ decode_encode i
  rw [decodeTableWord, if_neg hfits, if_pos (by decide), if_pos hw, hdecode]
  rfl

/-- Settles O3: each row is the code that the encoder gives its instruction. -/
theorem writtenWordsDecode : Obligations.WrittenWordsDecode := by
  refine ⟨decodeTableWord_command ?_ rfl, decodeTableWord_command ?_ rfl, decodeTableWord_command ?_ rfl,
    decodeTableWord_phase ?_ rfl, decodeTableWord_phase ?_ rfl, decodeTableWord_phase ?_ rfl,
    decodeTableWord_phase ?_ rfl, decodeTableWord_phase ?_ rfl, decodeTableWord_phase ?_ rfl,
    decodeTableWord_phase ?_ rfl, decodeTableWord_phase ?_ rfl⟩ <;> decide

end Sys2Proof.Machine
end

section
/-!
PROOFS. The engine beside a host that waits (30_encoding.md R98): a turn of the engine does not see the host, and the
wait ends in the state in which the engine comes to rest.
-/

namespace Sys2Proof.Machine

/-! ### What the engine sees of the host -/

/-- The state with another script and another value last read. -/
def State.withHost (s : State) (script : List Event) (rdata : Option Word) : State :=
  { s with script := script, rdata := rdata }

/-- The next state of a result, changed by `f`. -/
def mapNext (f : State → State) : Result → Result
  | .next t => .next (f t)
  | .fault r => .fault r
  | .refused r => .refused r

section
variable (s : State) (script : List Event) (rdata : Option Word)

theorem readBuffer_withHost (a n : Nat) : (s.withHost script rdata).readBuffer a n = s.readBuffer a n := by
  have hbyte (x : Nat) : (s.withHost script rdata).bufferByte x = s.bufferByte x := rfl
  induction n generalizing a with
  | zero => rfl
  | succ n ih => simp only [State.readBuffer, hbyte, ih]

/-- The contract of a phase step is no matter of the host. -/
theorem phaseStep_withHost {effect effect' : Result} (h : effect' = mapNext (·.withHost script rdata) effect) :
    phaseStep (s.withHost script rdata) effect' = mapNext (·.withHost script rdata) (phaseStep s effect) := by
  have hcontract : (s.withHost script rdata).contractHolds = s.contractHolds := rfl
  unfold phaseStep
  rw [hcontract, h]
  split <;> rfl

theorem exec_consume_withHost : exec .consume (s.withHost script rdata) =
    mapNext (·.withHost script rdata) (exec .consume s) := by
  refine phaseStep_withHost s script rdata ?_
  have hread : (s.withHost script rdata).readBuffer (s.withHost script rdata).readAddress (s.withHost script rdata).bs =
      s.readBuffer s.readAddress s.bs := readBuffer_withHost s script rdata _ _
  rw [hread]
  cases s.readBuffer s.readAddress s.bs <;> rfl

theorem exec_drain_withHost : exec .drain (s.withHost script rdata) =
    mapNext (·.withHost script rdata) (exec .drain s) := by
  refine phaseStep_withHost s script rdata ?_
  have hread : (s.withHost script rdata).readBuffer (s.withHost script rdata).readAddress
      (s.withHost script rdata).remain.toNat = s.readBuffer s.readAddress s.remain.toNat :=
    readBuffer_withHost s script rdata _ _
  rw [hread]
  cases s.readBuffer s.readAddress s.remain.toNat <;> rfl

theorem exec_emit_withHost : exec .emit (s.withHost script rdata) =
    mapNext (·.withHost script rdata) (exec .emit s) := by
  refine phaseStep_withHost s script rdata ?_
  change (if s.count = digestWords s.lwidth.toNat then _ else _) = _
  split <;> rfl

/-- No phase step reads or writes what is the host's (30_encoding.md R93). -/
theorem exec_withHost {p : BitVec 4} {i : Instr} (hi : decode (.phase p) = .ok i) :
    exec i (s.withHost script rdata) = mapNext (·.withHost script rdata) (exec i s) := by
  rcases decodePhase_ok hi with ⟨_, rfl⟩ | ⟨_, rfl⟩ | ⟨_, rfl⟩ | ⟨_, rfl⟩ | ⟨_, rfl⟩ | ⟨_, rfl⟩ | ⟨_, rfl⟩ |
    ⟨_, rfl⟩
  · exact phaseStep_withHost s script rdata rfl
  · exact phaseStep_withHost s script rdata rfl
  · exact exec_consume_withHost s script rdata
  · exact exec_drain_withHost s script rdata
  · exact phaseStep_withHost s script rdata rfl
  · exact phaseStep_withHost s script rdata rfl
  · exact phaseStep_withHost s script rdata rfl
  · exact exec_emit_withHost s script rdata

/-- A turn of the engine is the same, whatever the host is about to do (10_state.md R20). -/
theorem engineTurn_withHost :
    engineTurn (s.withHost script rdata) = mapNext (·.withHost script rdata) (engineTurn s) := by
  have hresult : (s.withHost script rdata).result = s.result := rfl
  have hphase : (s.withHost script rdata).phase = s.phase := rfl
  unfold engineTurn
  rw [hresult, hphase]
  cases reservedResult s.result with
  | true => rfl
  | false =>
    cases hd : decode (.phase s.phase) with
    | ok i => exact exec_withHost s script rdata hd
    | error r => cases r <;> rfl

end

/-! ### The engine comes to rest -/

/-- With BUSY = 0 the engine has no phase step to take. -/
def State.settled (s : State) : Prop :=
  s.busy = false → s.result.toNat ≤ 5 ∧ (s.phase = phIdle ∨ s.phase = phFatal)

theorem engineTurn_of_settled {s : State} (h : s.settled) (hbusy : s.busy = false) : engineTurn s = .next s := by
  obtain ⟨hresult, hphase⟩ := h hbusy
  exact engineTurn_of_rest hresult hphase

/-- In a phase that names a step a settled state is busy. -/
theorem State.settled.busy {s : State} (h : s.settled) {p : BitVec 4} (hphase : s.phase = p)
    (hp : p ≠ phIdle ∧ p ≠ phFatal) : s.busy = true := by
  by_contra hbusy
  obtain ⟨-, hrest⟩ := h (by simpa using hbusy)
  rw [hphase] at hrest
  exact hrest.elim hp.1 hp.2

theorem settled_of_busy {s : State} (hbusy : s.busy = true) : s.settled := by
  intro hidle
  rw [hbusy] at hidle
  cases hidle

/-- BUSY falls together with the phase: in EMIT, by a bus error, or by the fatal state (10_state.md R29). -/
theorem EngineMove.settled {s t : State} (m : EngineMove s t) (h : s.settled) : t.settled := by
  cases m with
  | rest => exact h
  | fatal => exact fun _ => ⟨(by decide : resErrFatal.toNat ≤ 5), .inr rfl⟩
  | busError => exact fun _ => ⟨(by decide : resErrBus.toNat ≤ 5), .inl rfl⟩
  | emit => exact fun _ => ⟨(by decide : resOk.toNat ≤ 5), .inl rfl⟩
  | seltier hphase => exact settled_of_busy (h.busy hphase (by decide))
  | seedx hphase => exact settled_of_busy (h.busy hphase (by decide))
  | consume hphase => exact settled_of_busy (h.busy hphase (by decide))
  | drain hphase => exact settled_of_busy (h.busy hphase (by decide))
  | diffuse hphase => exact settled_of_busy (h.busy hphase (by decide))
  | fold hphase => exact settled_of_busy (h.busy hphase (by decide))
  | halve hphase => exact settled_of_busy (h.busy hphase (by decide))

/-! ### The wait -/

/-- With no host action left the step is the engine's turn, and leaves the host as it is. -/
theorem step_withHost_nil (s : State) (rdata : Option Word) :
    step (s.withHost [] rdata) = mapNext (·.withHost [] rdata) (engineTurn s) := by
  rw [step_of_engineNext (rest := []) (.inr ⟨rfl, rfl⟩)]
  exact engineTurn_withHost s [] rdata

/-- A settled engine that is not busy stays as it is. -/
theorem run_of_settled {s : State} (h : s.settled) (hbusy : s.busy = false) (rdata : Option Word) (k : Nat) :
    Sys2Proof.core.run k (s.withHost [] rdata) = .next (s.withHost [] rdata) := by
  induction k with
  | zero => rfl
  | succ k ih =>
    have hstep := step_withHost_nil s rdata
    rw [engineTurn_of_settled h hbusy] at hstep
    rw [run_succ_of_step hstep, ih]

/-- The wait is over at a read with BUSY = 0 (30_encoding.md R98). -/
theorem step_wait_of_idle {s : State} (hbusy : s.busy = false) (rest : List Event) (rdata : Option Word) :
    step (s.withHost (.wait :: rest) rdata) = .next (s.withHost rest (some s.statusWord)) := by
  rw [step_of_script (e := .wait) (rest := rest) rfl]
  rcases waitRead_cases (s.withHost rest rdata) with ⟨_, e⟩ | ⟨hbusy', _⟩
  · exact congrArg Host.Outcome.next e
  · cases hbusy.symm.trans hbusy'

/-- While BUSY = 1 the wait is a read of STATUS, a turn of the engine, and the wait again
(30_encoding.md R98; notes/assumptions/9.md). -/
theorem run_wait_of_busy {s t : State} (hbusy : s.busy = true) (hturn : engineTurn s = .next t) (rest : List Event)
    (rdata : Option Word) (k : Nat) :
    Sys2Proof.core.run (k + 2) (s.withHost (.wait :: rest) rdata) =
      Sys2Proof.core.run k (t.withHost (.wait :: rest) (some s.statusWord)) := by
  have hread : step (s.withHost (.wait :: rest) rdata) =
      .next (s.withHost (.engine :: .wait :: rest) (some s.statusWord)) := by
    rw [step_of_script (e := .wait) (rest := rest) rfl]
    rcases waitRead_cases (s.withHost rest rdata) with ⟨hbusy', _⟩ | ⟨_, e⟩
    · cases hbusy.symm.trans hbusy'
    · exact congrArg Host.Outcome.next e
  have hengine : step (s.withHost (.engine :: .wait :: rest) (some s.statusWord)) =
      .next (t.withHost (.wait :: rest) (some s.statusWord)) := by
    rw [step_of_engineNext (rest := .wait :: rest) (.inl rfl)]
    exact (engineTurn_withHost s (.wait :: rest) _).trans (congrArg _ hturn)
  rw [run_succ_of_step hread, run_succ_of_step hengine]

/-- Where the engine, left alone, comes to a state with BUSY = 0, the wait beside it ends in that state, with its STATUS
the value last read (30_encoding.md R98). By induction on the turns of the engine. -/
theorem run_wait {k : Nat} {s t : State} {alone : Option Word} (h : s.settled)
    (hrun : Sys2Proof.core.run k (s.withHost [] alone) = .next t) (hend : t.busy = false) (rest : List Event)
    (rdata : Option Word) :
    ∃ j, Sys2Proof.core.run j (s.withHost (.wait :: rest) rdata) = .next (t.withHost rest (some t.statusWord)) := by
  induction k generalizing s rdata with
  | zero =>
    cases hrun
    exact ⟨1, run_succ_of_step (step_wait_of_idle hend rest rdata) 0⟩
  | succ k ih =>
    cases hbusy : s.busy with
    | false =>
      cases (run_of_settled h hbusy alone (k + 1)).symm.trans hrun
      exact ⟨1, run_succ_of_step (step_wait_of_idle hbusy rest rdata) 0⟩
    | true =>
      have hstep := step_withHost_nil s alone
      cases hturn : engineTurn s with
      | next u =>
        rw [hturn] at hstep
        rw [run_succ_of_step hstep] at hrun
        obtain ⟨j, hj⟩ := ih ((engineMove_of_turn hturn).settled h) hrun (some s.statusWord)
        exact ⟨j + 2, (run_wait_of_busy hbusy hturn rest rdata j).trans hj⟩
      | fault r => cases r
      | refused r =>
        rw [hturn] at hstep
        have hrefused : Sys2Proof.core.step (s.withHost [] alone) = .refused r := hstep
        simp [Host.Core.run, hrefused] at hrun

end Sys2Proof.Machine
end

section
/-!
PROOFS. How an accepted HASH ends: with ERR_BUS where its buffer is not backed (60_exceptions.md R249), with the digest
where it is (44_block_driver.md R170).
-/

namespace Sys2Proof.Machine

/-! ### Reads that fail -/

/-- Two backed runs, end to end. -/
theorem backedRun_append {m : Memory} {a n k : Nat} (hlow : backedRun m a k = true)
    (hhigh : backedRun m (a + k) (n - k) = true) : backedRun m a n = true := by
  refine backedRun_iff.2 fun j hj => ?_
  rcases Nat.lt_or_ge j k with hjk | hjk
  · exact backedRun_iff.1 hlow j hjk
  · have hbyte := backedRun_iff.1 hhigh (j - k) (by omega)
    rwa [show a + k + (j - k) = a + j by omega] at hbyte

/-- A read of a run that is not backed is a bus error (20_memory.md R62). -/
theorem readBuffer_of_not_backed {s : State} {a n : Nat} (h : backedRun s.mem a n = false) :
    ∃ b before, s.readBuffer a n = .busError b before := by
  rcases readBuffer_spec s a n with ⟨bytes, _, _, hbytes⟩ | ⟨_, before, _, hread, _⟩
  · have hbacked : backedRun s.mem a n = true :=
      backedRun_iff.2 fun j hj => by rw [← bufferByte_isSome, hbytes j hj]; rfl
    cases h.symm.trans hbacked
  · exact ⟨_, before, hread⟩

/-- The HASH has ended with ERR_BUS (60_exceptions.md R249). -/
def State.busFailed (s : State) : Prop := s.busy = false ∧ s.result = resErrBus

theorem exec_consume_of_not_backed {s : State} (contract : s.contractHolds = true)
    (h : backedRun s.mem s.readAddress s.bs = false) : ∃ t, exec .consume s = .next t ∧ t.busFailed := by
  obtain ⟨b, before, hread⟩ := readBuffer_of_not_backed h
  have hexec : exec .consume s = _ := phaseStep_of_contract contract _
  rw [hread] at hexec
  exact ⟨_, hexec, rfl, rfl⟩

theorem exec_drain_of_not_backed {s : State} (contract : s.contractHolds = true)
    (h : backedRun s.mem s.readAddress s.remain.toNat = false) : ∃ t, exec .drain s = .next t ∧ t.busFailed := by
  obtain ⟨b, before, hread⟩ := readBuffer_of_not_backed h
  have hexec : exec .drain s = _ := phaseStep_of_contract contract _
  rw [hread] at hexec
  exact ⟨_, hexec, rfl, rfl⟩

/-! ### The block that fails -/

/-- The engine is about to consume the bytes left of its buffer, and some are not backed. Unlike `InHash` this asks
nothing of the form of the memory, of which R98 says nothing. -/
structure Failing (s : State) : Prop extends MidHash s where
  phase : s.phase = nextBlockPhase s.remain s.bs
  notBacked : backedRun s.mem s.readAddress s.remain.toNat = false
  fits : s.cursor.toNat + s.remain.toNat < 2 ^ 64

namespace Failing

variable {s : State}

/-- CURSOR and REMAIN after a block is consumed (44_block_driver.md R177). -/
theorem consumeBlock_toNat (h : Failing s) (hblock : s.bs ≤ s.remain.toNat) (bytes : List Byte) :
    (s.consumeBlock bytes).cursor.toNat = s.cursor.toNat + s.bs ∧
    (s.consumeBlock bytes).remain.toNat = s.remain.toNat - s.bs := by
  have hfits := h.fits
  show (s.cursor + BitVec.ofNat 64 s.bs).toNat = _ ∧ (s.remain - BitVec.ofNat 64 s.bs).toNat = _
  constructor <;> bv_omega

/-- After a backed block the bytes that are not backed are still left. -/
theorem consumeBlock (h : Failing s) (hblock : s.bs ≤ s.remain.toNat)
    (hbacked : backedRun s.mem s.readAddress s.bs = true) (bytes : List Byte) : Failing (s.consumeBlock bytes) := by
  obtain ⟨hcursor, hremain⟩ := h.consumeBlock_toNat hblock bytes
  have haddress : (s.consumeBlock bytes).readAddress = s.readAddress + s.bs := by
    show s.lbuf.toNat + (s.consumeBlock bytes).cursor.toNat = s.lbuf.toNat + s.cursor.toNat + s.bs
    omega
  have hfits := h.fits
  refine ⟨⟨h.script, h.result, h.contract⟩, rfl, ?_, by omega⟩
  rw [haddress, hremain, ← Bool.not_eq_true]
  intro hrest
  cases h.notBacked.symm.trans (backedRun_append hbacked hrest)

end Failing

/-- The HASH ends with ERR_BUS in the first step that needs a byte which is not backed, by recursion on REMAIN. -/
theorem Failing.run_eq {s : State} (h : Failing s) : ∃ k t, Sys2Proof.core.run k s = .next t ∧ t.busFailed := by
  have hbs : 0 < s.bs := by rcases bs_of_contract h.contract with e | e | e <;> omega
  rcases Nat.lt_or_ge s.remain.toNat s.bs with htail | hblock
  · have hphase : s.phase = phDraining := h.phase.trans (if_neg (Nat.not_le.2 htail))
    obtain ⟨t, hexec, hfailed⟩ := exec_drain_of_not_backed h.contract h.notBacked
    have hstep := (h.step_eq (i := .drain) (by rw [hphase]; rfl)).trans hexec
    exact ⟨1, t, run_succ_of_step hstep 0, hfailed⟩
  have hphase : s.phase = phConsuming := h.phase.trans (if_pos hblock)
  have hconsume : step s = exec .consume s := h.step_eq (by rw [hphase]; rfl)
  cases hbacked : backedRun s.mem s.readAddress s.bs with
  | false =>
    obtain ⟨t, hexec, hfailed⟩ := exec_consume_of_not_backed h.contract hbacked
    exact ⟨1, t, run_succ_of_step (hconsume.trans hexec) 0, hfailed⟩
  | true =>
    obtain ⟨-, hremain⟩ := h.consumeBlock_toNat hblock (s.bufferBytes s.readAddress s.bs)
    obtain ⟨k, t, hrun, hfailed⟩ := (h.consumeBlock hblock hbacked (s.bufferBytes s.readAddress s.bs)).run_eq
    have hstep := hconsume.trans (exec_consume_of_backed h.contract hbacked)
    exact ⟨k + 1, t, (run_succ_of_step hstep k).trans hrun, hfailed⟩
termination_by s.remain.toNat
decreasing_by omega

/-! ### A launched HASH -/

/-- An accepted HASH is inside its contract: validation has checked it (44_block_driver.md R173). -/
theorem midHash_launched_of_valid {s : State} (valid : s.hashValid = true) : MidHash s.launched := by
  simp only [State.hashValid, Bool.and_eq_true] at valid
  obtain ⟨⟨hwidth, htier⟩, -⟩ := valid
  exact ⟨rfl, rfl, Bool.and_eq_true_iff.2 ⟨hwidth, htier⟩⟩

/-- Over a buffer that is not backed it ends with ERR_BUS (60_exceptions.md R249). -/
theorem run_launched_of_not_backed {s : State} (valid : s.hashValid = true)
    (notBacked : backedRun s.mem s.buf.toNat s.len.toNat = false) :
    ∃ k t, Sys2Proof.core.run k s.launched = .next t ∧ t.busFailed := by
  have hmid := midHash_launched_of_valid valid
  have hfits : 0 + s.len.toNat < 2 ^ 64 := by
    rw [Nat.zero_add]
    exact s.len.isLt
  have hfailing : Failing s.started := ⟨⟨rfl, rfl, hmid.contract⟩, rfl, notBacked, hfits⟩
  obtain ⟨k, t, hrun, hfailed⟩ := hfailing.run_eq
  exact ⟨2 + k, t, (run_add (run_seltier_seedx hmid rfl) k).trans hrun, hfailed⟩

/-- Over a backed buffer it ends with the digest of its bytes, seed and width (44_block_driver.md R170). -/
theorem run_launched_of_backed {s : State} (idle : s.idle) (valid : s.hashValid = true)
    (noDevice : s.deviceInBuffer = false) (backed : backedRun s.mem s.buf.toNat s.len.toNat = true) :
    ∃ k t, Sys2Proof.core.run k s.launched = .next t ∧ t.busy = false ∧ t.result = resOk ∧ t.dvalid = true ∧
      t.digest = digestAt (bytesAt s.mem s.buf.toNat s.len.toNat) s.seed s.width.toNat := by
  have issued : HashIssued { s with script := [.write 0x000 4 0x00000010] } := ⟨idle, valid, noDevice, backed, rfl⟩
  obtain ⟨t, hrun, hdigest, hframe⟩ := issued.run_eq
  rw [hashSteps, Nat.add_comm, run_succ_of_step issued.step_eq] at hrun
  exact ⟨_, t, hrun, by rw [hframe], by rw [hframe], by rw [hframe], hdigest⟩

end Sys2Proof.Machine
end

section
/-!
PROOFS. The pseudo-instructions of 30_encoding.md R98: the writes of their scripts, their command, and what the host
reads after it.
-/

namespace Sys2Proof.Machine

/-! ### The scripts -/

theorem mixScript_eq (a b : Word) :
    mixScript a b = [.write 0x024 4 a, .write 0x028 4 b, .write 0x000 4 0x01, .read 0x02C 4] := rfl

theorem mixcScript_eq (a : Word) : mixcScript a = [.write 0x024 4 a, .write 0x000 4 0x02, .read 0x02C 4] := rfl

theorem hashScript_eq (buf len : Addr) (seed width tier : Word) :
    hashScript buf len seed width tier =
      [.write 0x008 4 seed, .write 0x00C 4 width, .write 0x010 4 tier,
        .write 0x014 4 (buf.extractLsb' 0 32), .write 0x018 4 (buf.extractLsb' 32 32),
        .write 0x01C 4 (len.extractLsb' 0 32), .write 0x020 4 (len.extractLsb' 32 32),
        .write 0x000 4 0x10, .wait, .collect width] := rfl

/-- The two halves of an address, side by side, are the address (10_state.md R40, R41). -/
theorem extractLsb'_append_halves (x : Addr) : x.extractLsb' 32 32 ++ x.extractLsb' 0 32 = x := by
  refine BitVec.eq_of_toNat_eq ?_
  rw [word_append_toNat, BitVec.extractLsb'_toNat, BitVec.extractLsb'_toNat, Nat.shiftRight_eq_div_pow,
    Nat.shiftRight_eq_div_pow]
  have := x.isLt
  omega

section
variable (s : State) (buf len : Addr) (seed width tier : Word)

@[simp] theorem configured_mem : (s.configured buf len seed width tier).mem = s.mem := rfl

@[simp] theorem configured_buf : (s.configured buf len seed width tier).buf = buf := extractLsb'_append_halves buf

@[simp] theorem configured_len : (s.configured buf len seed width tier).len = len := extractLsb'_append_halves len

end

/-- A write in a script, by what the register does with it. -/
theorem run_write {k : Nat} {s t : State} {offset : Nat} {v : Word} {rest : List Event}
    (hscript : s.script = .write offset 4 v :: rest) (haligned : offset % 4 = 0)
    (hwrite : writeReg { s with script := rest } (regAt offset) v = .next t) :
    Sys2Proof.core.run (k + 1) s = Sys2Proof.core.run k t :=
  run_succ_of_step ((step_of_write hscript haligned).trans hwrite) k

/-- A command in a script, run from an idle block (60_exceptions.md R245). -/
theorem run_command {k : Nat} {s t : State} {c : Word} {i : Instr} {rest : List Event}
    (hscript : s.script = .write 0x000 4 c :: rest) (idle : s.idle) (hi : decode (.command c) = .ok i)
    (hexec : exec i { s with script := rest } = .next t) :
    Sys2Proof.core.run (k + 1) s = Sys2Proof.core.run k t :=
  run_succ_of_step ((step_of_command hscript idle hi).trans hexec) k

/-- The seven configuration writes of `hash` leave its configuration, and its `CMD` write next. -/
theorem run_configuration {s : State} {buf len : Addr} {seed width tier : Word} (hbusy : s.busy = false)
    (hscript : s.script = hashScript buf len seed width tier) (k : Nat) :
    Sys2Proof.core.run (k + 7) s = Sys2Proof.core.run k
      { s.configured buf len seed width tier with script := [.write 0x000 4 0x10, .wait, .collect width] } := by
  have hfree : ¬ s.busy = true := by simp [hbusy]
  rw [hashScript_eq] at hscript
  exact Eq.trans (run_write hscript rfl (if_neg hfree)) <| Eq.trans (run_write rfl rfl (if_neg hfree)) <|
    Eq.trans (run_write rfl rfl (if_neg hfree)) <| Eq.trans (run_write rfl rfl (if_neg hfree)) <|
    Eq.trans (run_write rfl rfl (if_neg hfree)) <| Eq.trans (run_write rfl rfl (if_neg hfree)) <|
    run_write rfl rfl (if_neg hfree)

/-! ### The end of `hash` -/

/-- RESULT is bits 7:4 of STATUS (10_state.md R28). -/
theorem statusWord_result (s : State) : s.statusWord.extractLsb' 4 4 = s.result := by
  obtain ⟨-, -, -, -, hresult, -⟩ := statusWordHasItsFields s
  exact hresult

/-- After RESULT = 1 the end of `hash` returns the digest words (30_encoding.md R98). -/
theorem collectDigest_of_ok {s : State} {width : Word} (hrdata : s.rdata = some s.statusWord)
    (hresult : s.result = resOk) (hdvalid : s.dvalid = true) (hwidth : legalWidth width = true) :
    collectDigest s width = some ((List.range (width.toNat / 32)).map fun k => entry s.digest k) := by
  rcases collectDigest_cases s s.statusWord width hrdata with ⟨_, e⟩ | ⟨hnot, _⟩
  · rw [e]
    refine congrArg some (List.map_congr_left fun k hk => ?_)
    obtain ⟨-, -, -, -, hfold, -, -, hdigest⟩ := sizes_of_legalWidth hwidth
    have hk' : k < digestWords width.toNat := List.mem_range.1 hk
    rw [regAt_digest (by omega)]
    exact if_pos hdvalid
  · exact absurd ((statusWord_result s).trans hresult) hnot

/-- After another RESULT it returns no digest (30_encoding.md R98). -/
theorem collectDigest_of_not_ok {s : State} (width : Word) (hrdata : s.rdata = some s.statusWord)
    (hresult : s.result ≠ resOk) : collectDigest s width = none := by
  rcases collectDigest_cases s s.statusWord width hrdata with ⟨hok, _⟩ | ⟨_, e⟩
  · exact absurd ((statusWord_result s).symm.trans hok) hresult
  · exact e

/-- The end of `hash` in a script. -/
theorem step_collect {s : State} {width : Word} (hscript : s.script = [.collect width]) :
    step s = .next { s with script := [], returned := collectDigest { s with script := [] } width } :=
  step_of_script hscript

/-! ### The pseudo-instructions -/

/-- MIX in an idle block (41_wordmix.md R125). -/
theorem exec_mix_of_idle {s : State} (idle : s.idle) :
    exec .mix s = .next { s with res := mix s.opa s.opb, result := resOk } :=
  commandStep_of_idle idle.1 idle.2 _

/-- MIXC in an idle block (41_wordmix.md R126). -/
theorem exec_mixc_of_idle {s : State} (idle : s.idle) :
    exec .mixc s = .next { s with res := mix s.opa Config.mixConst, result := resOk } :=
  commandStep_of_idle idle.1 idle.2 _

/-- `mix a, b` (30_encoding.md R98; 41_wordmix.md R125). -/
theorem run_mixScript {s : State} (idle : s.idle) {a b : Word} (hscript : s.script = mixScript a b) :
    Sys2Proof.core.run 4 s = .next { s with
      script := [], opa := a, opb := b, res := mix a b, result := resOk, rdata := some (mix a b) } := by
  have hfree : ¬ s.busy = true := by simp [idle.1]
  rw [mixScript_eq] at hscript
  calc Sys2Proof.core.run 4 s
    _ = Sys2Proof.core.run 3 { s with
        script := [.write 0x028 4 b, .write 0x000 4 0x01, .read 0x02C 4], opa := a } :=
      run_write hscript rfl (if_neg hfree)
    _ = Sys2Proof.core.run 2 { s with script := [.write 0x000 4 0x01, .read 0x02C 4], opa := a, opb := b } :=
      run_write rfl rfl (if_neg hfree)
    _ = Sys2Proof.core.run 1 { s with
        script := [.read 0x02C 4], opa := a, opb := b, res := mix a b, result := resOk } :=
      run_command rfl idle rfl (exec_mix_of_idle idle)
    _ = _ := run_succ_of_step (step_of_read rfl rfl) 0

/-- `mix a`, also `mixc a` (30_encoding.md R98; 41_wordmix.md R126). -/
theorem run_mixcScript {s : State} (idle : s.idle) {a : Word} (hscript : s.script = mixcScript a) :
    Sys2Proof.core.run 3 s = .next { s with
      script := [], opa := a, res := mix a Config.mixConst, result := resOk
      rdata := some (mix a Config.mixConst) } := by
  have hfree : ¬ s.busy = true := by simp [idle.1]
  rw [mixcScript_eq] at hscript
  calc Sys2Proof.core.run 3 s
    _ = Sys2Proof.core.run 2 { s with script := [.write 0x000 4 0x02, .read 0x02C 4], opa := a } :=
      run_write hscript rfl (if_neg hfree)
    _ = Sys2Proof.core.run 1 { s with
        script := [.read 0x02C 4], opa := a, res := mix a Config.mixConst, result := resOk } :=
      run_command rfl idle rfl (exec_mixc_of_idle idle)
    _ = _ := run_succ_of_step (step_of_read rfl rfl) 0

/-- HASH in an idle block, with a configuration that validation rejects (60_exceptions.md R247). -/
theorem exec_hash_of_invalid {s : State} (idle : s.idle) (invalid : s.hashValid = false) :
    exec .hash s = .next s.raiseConfigError := by
  refine (commandStep_of_idle idle.1 idle.2 _).trans ?_
  simp [invalid]

/-- `hash` with a configuration that validation rejects (30_encoding.md R98; 60_exceptions.md R247). -/
theorem run_hashScript_of_invalid {s : State} (idle : s.idle) {buf len : Addr} {seed width tier : Word}
    (hscript : s.script = hashScript buf len seed width tier)
    (invalid : (s.configured buf len seed width tier).hashValid = false) :
    ∃ t, Sys2Proof.core.run 10 s = .next t ∧ t = { s.configured buf len seed width tier with
      script := [], result := resErrCfg, rdata := some t.statusWord, returned := none } := by
  let rejected := (s.configured buf len seed width tier).raiseConfigError
  have hrest : rejected.busy = false := idle.1
  have hresult : resErrCfg ≠ resOk := by decide
  have hcollect := collectDigest_of_not_ok (s := rejected.withHost [] (some rejected.statusWord)) width rfl hresult
  refine ⟨{ rejected.withHost [] (some rejected.statusWord) with returned := none }, ?_, rfl⟩
  rw [← hcollect]
  calc Sys2Proof.core.run 10 s
    _ = Sys2Proof.core.run 3 _ := run_configuration idle.1 hscript 3
    _ = Sys2Proof.core.run 2 (rejected.withHost [.wait, .collect width] s.rdata) :=
      run_command rfl idle rfl (exec_hash_of_invalid idle invalid)
    _ = Sys2Proof.core.run 1 (rejected.withHost [.collect width] (some rejected.statusWord)) :=
      run_succ_of_step (step_wait_of_idle hrest _ _) 1
    _ = _ := run_succ_of_step (step_collect rfl) 0

/-- `hash` with a configuration that validation passes: it ends as the HASH does when the host waits for it, and then
collects the digest (30_encoding.md R98). -/
theorem run_hashScript_of_valid {s : State} (idle : s.idle) {buf len : Addr} {seed width tier : Word}
    (hscript : s.script = hashScript buf len seed width tier)
    (valid : (s.configured buf len seed width tier).hashValid = true)
    (noDevice : (s.configured buf len seed width tier).deviceInBuffer = false) {k : Nat} {t : State}
    (hrun : Sys2Proof.core.run k (s.configured buf len seed width tier).launched = .next t) (hend : t.busy = false) :
    ∃ j, Sys2Proof.core.run j s = .next { t.withHost [] (some t.statusWord) with
      returned := collectDigest (t.withHost [] (some t.statusWord)) width } := by
  let launched := (s.configured buf len seed width tier).launched
  obtain ⟨j, hwait⟩ := run_wait (s := launched) (settled_of_busy rfl) hrun hend [.collect width] s.rdata
  refine ⟨(j + 1) + 1 + 7, ?_⟩
  calc Sys2Proof.core.run ((j + 1) + 1 + 7) s
    _ = Sys2Proof.core.run ((j + 1) + 1) _ := run_configuration idle.1 hscript _
    _ = Sys2Proof.core.run (j + 1) (launched.withHost [.wait, .collect width] s.rdata) :=
      run_command rfl idle rfl (exec_hash_of_valid idle valid noDevice)
    _ = Sys2Proof.core.run 1 (t.withHost [.collect width] (some t.statusWord)) := run_add hwait 1
    _ = _ := run_succ_of_step (step_collect rfl) 0

/-- Settles O60: a script is its writes, its command, and what the host reads after it; between the command and the
reads of `hash` lies the HASH, which the waiting host does not disturb. -/
theorem pseudoInstructionsReadTheirResults : Obligations.PseudoInstructionsReadTheirResults := by
  intro s hbusy hfatal
  have idle : s.idle := ⟨hbusy, hfatal⟩
  refine ⟨fun a b hscript => run_mixScript idle hscript, fun a hscript => run_mixcScript idle hscript, ?_⟩
  intro buf len seed width tier hscript
  refine ⟨run_hashScript_of_invalid idle hscript, fun valid noDevice => ?_⟩
  have hwidth : legalWidth width = true :=
    ((contractHolds_iff _).1 (midHash_launched_of_valid valid).contract).1
  cases hbacked : backedRun s.mem buf.toNat len.toNat with
  | true =>
    obtain ⟨k, t, hrun, hend, hresult, hdvalid, hdigest⟩ :=
      run_launched_of_backed (s := s.configured buf len seed width tier) idle valid noDevice (by simpa using hbacked)
    obtain ⟨j, hall⟩ := run_hashScript_of_valid idle hscript valid noDevice hrun hend
    have hcollect := collectDigest_of_ok (s := t.withHost [] (some t.statusWord)) rfl hresult hdvalid hwidth
    refine ⟨j, _, hall, rfl, hend, rfl, fun _ => ⟨hresult, hcollect.trans ?_⟩, nofun⟩
    have hdigest' : (t.withHost [] (some t.statusWord)).digest = t.digest := rfl
    rw [hdigest', hdigest, configured_buf, configured_len]
    rfl
  | false =>
    obtain ⟨k, t, hrun, hend, hresult⟩ :=
      run_launched_of_not_backed (s := s.configured buf len seed width tier) valid (by simpa using hbacked)
    obtain ⟨j, hall⟩ := run_hashScript_of_valid idle hscript valid noDevice hrun hend
    have hnot : (t.withHost [] (some t.statusWord)).result ≠ resOk := by
      show t.result ≠ resOk
      rw [hresult]
      decide
    exact ⟨j, _, hall, rfl, hend, rfl, nofun, fun _ => ⟨hresult, collectDigest_of_not_ok width rfl hnot⟩⟩

end Sys2Proof.Machine
end

section
/-!
PROOFS. The Word-Mix Primitive: the wrap of its addition, its identities (41_wordmix.md R123, R124), and what the
commands MIX and MIXC write in an idle block (R125, R126).
-/

namespace Sys2Proof.Machine

/-! ### The operations of the data path -/

/-- The carry out of bit 31 is lost (00_scope.md R13). -/
theorem add32_toNat (x y : Word) : (add32 x y).toNat = (x.toNat + y.toNat) % 2 ^ 32 :=
  BitVec.toNat_add x y

theorem add32_zero (x : Word) : add32 x 0 = x := BitVec.add_zero x

theorem rotl_zero (r : Nat) : rotl 0 r = 0 := by simp [rotl]

/-- Settles O56: the two sums of R123 are closed, and the law is that of addition of words. -/
theorem addWrapsModuloTwoToThe32 : Obligations.AddWrapsModuloTwoToThe32 :=
  ⟨rfl, rfl, add32_toNat⟩

/-! ### The identities of `mix` -/

/-- `mix` in one formula, the updated operand `b1 = b ^ a` written out (41_wordmix.md R120). -/
theorem mix_eq (a b : Word) :
    mix a b = add32 (rotl a 11 ^^^ (b ^^^ a) ^^^ rotl (b ^^^ a) 13) (rotl (b ^^^ a) 19) := rfl

/-- With the operands exchanged only the term `rotl(a, 11)` is another one: the exclusive or `b1` is commutative. -/
theorem mix_exchange (a b : Word) :
    mix b a = add32 (rotl b 11 ^^^ (b ^^^ a) ^^^ rotl (b ^^^ a) 13) (rotl (b ^^^ a) 19) := by
  rw [mix_eq, BitVec.xor_comm a b]

/-- With equal operands `b1 = 0`, and only the rotation of `a` stays. -/
theorem mix_self (a : Word) : mix a a = rotl a 11 := by
  have hb1 : a ^^^ a = 0 := BitVec.xor_self
  have ha (x : Word) : x ^^^ 0 = x := BitVec.xor_zero
  rw [mix_eq, hb1, rotl_zero, rotl_zero, add32_zero, ha, ha]

theorem mix_zero_left (b : Word) : mix 0 b = add32 (b ^^^ rotl b 13) (rotl b 19) := by
  have hb1 : b ^^^ 0 = b := BitVec.xor_zero
  have ha : 0 ^^^ b = b := BitVec.zero_xor
  rw [mix_eq, hb1, rotl_zero, ha]

theorem mix_zero_right (a : Word) : mix a 0 = add32 (rotl a 11 ^^^ a ^^^ rotl a 13) (rotl a 19) := by
  have hb1 : 0 ^^^ a = a := BitVec.zero_xor
  rw [mix_eq, hb1]

/-- Settles O57: each identity follows from what `b1 = b ^ a` becomes for its operands. -/
theorem mixObeysItsIdentities : Obligations.MixObeysItsIdentities :=
  ⟨(mix_self 0).trans (rotl_zero 11), mix_self, mix_zero_left, mix_zero_right, by decide, by decide,
    fun a b => ⟨mix_eq a b, mix_exchange a b⟩⟩

/-! ### MIX and MIXC in an idle block -/

/-- Settles O7: the command is not dropped, and RES is `mix` in one formula. -/
theorem mixCompletes : Obligations.MixCompletes := by
  intro s hbusy hfatal
  have idle : s.idle := ⟨hbusy, hfatal⟩
  rw [exec_mix_of_idle idle, mix_eq]
  rfl

/-- Settles O8: another value of OPB leaves the block idle and is no operand of MIXC. -/
theorem mixcCompletes : Obligations.MixcCompletes := by
  intro s hbusy hfatal
  have idle : s.idle := ⟨hbusy, hfatal⟩
  have idle' (b : Word) : { s with opb := b }.idle := idle
  exact ⟨exec_mixc_of_idle idle, fun b => exec_mixc_of_idle (idle' b)⟩

end Sys2Proof.Machine
end

section
/-!
PROOFS. Seed Expansion (42_seed_expansion.md R140, R141): the words of the lanes after SEEDX, the working seed and the
next phase, from any lane file.
-/

namespace Sys2Proof.Machine

/-- A legal latched width has at most the 64 words of a lane (00_scope.md R9). -/
theorem n_le_of_contract {s : State} (contract : s.contractHolds = true) : s.n ≤ 64 := by
  obtain ⟨hwidth, -⟩ := (contractHolds_iff s).1 contract
  obtain ⟨-, -, hn, -⟩ := sizes_of_legalWidth hwidth
  exact hn

/-- The words that the command reads: all those of lane `l` are `s_l` (42_seed_expansion.md R141). -/
theorem word_seedLanes_of_lt (c seed : Word) {n : Nat} (hn : n ≤ 64) (h : Lanes) {l i : Nat} (hl : 1 ≤ l ∧ l ≤ 4)
    (hi : i < n) : (seedLanes c seed n h).word l i = seedAfter c seed (l - 1) := by
  rw [seedLanes, word_lanesWith _ _ _ hl, if_pos ⟨hi, by omega⟩]

/-- Seed expansion writes no word with index ≥ N (10_state.md R22). -/
theorem lanesAgreeFrom_seedLanes (c seed : Word) (n : Nat) (h : Lanes) :
    LanesAgreeFrom n (seedLanes c seed n h) h :=
  lanesAgreeFrom_lanesWith n _ h

/-- `s1` to `s4` and the working seed they leave, as nested uses of `mix` (42_seed_expansion.md R140). -/
theorem seedAfter_eqs (c seed : Word) :
    seedAfter c seed 0 = seed ∧ seedAfter c seed 1 = mix seed c ∧ seedAfter c seed 2 = mix (mix seed c) c ∧
    seedAfter c seed 3 = mix (mix (mix seed c) c) c ∧ seedAfter c seed 4 = mix (mix (mix (mix seed c) c) c) c :=
  ⟨rfl, rfl, rfl, rfl, rfl⟩

/-- Settles O29: the contract completes SEEDX, and bounds N by the size of a lane, so that each of the four lanes takes
its seed in all its N words. -/
theorem seedxFillsTheLanes : Obligations.SeedxFillsTheLanes := by
  intro s contract
  obtain ⟨e1, e2, e3, e4, e5⟩ := seedAfter_eqs Config.mixConst s.lseed
  have word {l i : Nat} (hl : 1 ≤ l ∧ l ≤ 4) (hi : i < s.n) :
      s.seedExpanded.h.word l i = seedAfter Config.mixConst s.lseed (l - 1) :=
    word_seedLanes_of_lt _ _ (n_le_of_contract contract) s.h hl hi
  refine ⟨s.seedExpanded, exec_seedx contract, fun i hi => ⟨?_, ?_, ?_, ?_⟩,
    lanesAgreeFrom_seedLanes _ _ s.n s.h, e5, rfl, rfl⟩
  · exact (word (by decide) hi).trans e1
  · exact (word (by decide) hi).trans e2
  · exact (word (by decide) hi).trans e3
  · exact (word (by decide) hi).trans e4

end Sys2Proof.Machine
end

section
/-!
PROOFS. The Mixing Round (43_mixing_round.md): its tiers are one round (R156), and at every word index below N it is a
round of single words (R151, R154).
-/

namespace Sys2Proof.Machine

/-! ### The four tiers -/

/-- Settles O31: the words of a lane are whole vectors of either tier, so both rounds are the scalar one. -/
theorem tiersComputeTheSameRound : Obligations.TiersComputeTheSameRound := by
  intro t1 t2 width w h hw
  have scalar (t : BitVec 2) :
      tierRound (tierWords t) (laneWords width.toNat) w h = scalarRound (laneWords width.toNat) w h :=
    tierRound_eq_scalarRound (tierWords_dvd_laneWords t hw) w h
  exact ⟨(scalar t1).trans (scalar t2).symm, scalar t1⟩

/-! ### One word index -/

/-- The words `a, b, c, d` of the four lanes at one index, after a round with the block words `m 0` to `m 3`
(43_mixing_round.md R153). -/
def wordRound (m : Nat → Word) (a b c d : Word) : Word × Word × Word × Word :=
  let r1 := substep a b (m 0)
  let r2 := substep r1.2 c (m 1)
  let r3 := substep r2.2 d (m 2)
  let r4 := substep r3.2 r1.1 (m 3)
  (r4.2, r2.1, r3.1, r4.1)

/-- A sub-step of two lanes is the sub-step of their words at each index that the command uses. -/
theorem entry_laneSubstep_of_lt {n i : Nat} (hn : n ≤ 64) (hi : i < n) (slice : Nat → Word) (a b : Lane) :
    (entry (laneSubstep n slice a b).1 i, entry (laneSubstep n slice a b).2 i) =
      substep (entry a i) (entry b i) (slice i) := by
  have used : i < n ∧ i < 64 := ⟨hi, by omega⟩
  simp only [laneSubstep, entry_laneWith, if_pos used]

/-- A sub-step leaves the words with index ≥ N (10_state.md R22). -/
theorem entry_laneSubstep_of_le {n i : Nat} (hi : n ≤ i) (slice : Nat → Word) (a b : Lane) :
    entry (laneSubstep n slice a b).1 i = entry a i ∧ entry (laneSubstep n slice a b).2 i = entry b i := by
  have unused : ¬(i < n ∧ i < 64) := by omega
  simp only [laneSubstep, entry_laneWith, if_neg unused, and_self]

/-- Sub-step by sub-step around the ring, no index sees another one. -/
theorem scalarRound_words_of_lt {n i : Nat} (hn : n ≤ 64) (hi : i < n) (w : List Word) (h : Lanes) :
    ((scalarRound n w h).word 1 i, (scalarRound n w h).word 2 i, (scalarRound n w h).word 3 i,
      (scalarRound n w h).word 4 i) =
    wordRound (fun k => blockSlice n w k i) (h.word 1 i) (h.word 2 i) (h.word 3 i) (h.word 4 i) := by
  have at_index (k : Nat) (a b : Lane) := entry_laneSubstep_of_lt hn hi (blockSlice n w k) a b
  simp only [scalarRound, ringOf, wordRound, Lanes.word, lane_one, lane_two, lane_three, lane_four, ← at_index]

/-- A round leaves the words with index ≥ N of all four lanes (10_state.md R22). -/
theorem lanesAgreeFrom_scalarRound (n : Nat) (w : List Word) (h : Lanes) :
    LanesAgreeFrom n (scalarRound n w h) h := by
  intro l i hl hl' hi
  have keep (k : Nat) (a b : Lane) := entry_laneSubstep_of_le hi (blockSlice n w k) a b
  obtain rfl | rfl | rfl | rfl : l = 1 ∨ l = 2 ∨ l = 3 ∨ l = 4 := by omega
  · exact (keep 3 _ _).2.trans (keep 0 _ _).1
  · exact (keep 1 _ _).1.trans (keep 0 _ _).2
  · exact (keep 2 _ _).1.trans (keep 1 _ _).2
  · exact (keep 3 _ _).1.trans (keep 2 _ _).2

/-- Settles O30: below N the closed form is a round of single words, its sub-steps written out. -/
theorem roundHasTheClosedForm : Obligations.RoundHasTheClosedForm := by
  intro n w h i hn
  refine ⟨fun hi => ?_, fun hi l hl hl' => lanesAgreeFrom_scalarRound n w h l i hl hl' hi⟩
  have words := scalarRound_words_of_lt hn hi w h
  simp only [wordRound, substep, blockSlice, Nat.zero_mul, Nat.one_mul, Nat.zero_add, Prod.mk.injEq] at words
  exact words

end Sys2Proof.Machine
end

section
/-!
PROOFS. A whole HASH: the registers at its end (44_block_driver.md R170, R172) and the number of its phase steps (R183).
The engine neither raises BUSY nor clears DVALID, so a HASH that is busy before EMIT was busy at every step before.
-/

namespace Sys2Proof.Machine

/-! ### The registers at the end -/

/-- The two bits of STATUS.TIER hold every tier that SELTIER can select (46_tier_selector.md R232, R233). -/
theorem selectTier_code (c : Capabilities) {req : Nat} (h : req ≤ 4) (addr : Addr) :
    (BitVec.ofNat 2 (selectTier c req addr)).toNat = selectTier c req addr := by
  obtain ⟨hle, -⟩ := selectTier_spec c addr h
  exact Nat.mod_eq_of_lt (by omega)

theorem HashIssued.tierreq_le {s : State} (h : HashIssued s) : s.tierreq.toNat ≤ 4 :=
  ((contractHolds_iff _).1 h.midHash_launched.contract).2

/-- Settles O51: the run ends with the digest, and the frame of the run gives each of the other registers. -/
theorem hashRunEndsWithTheDigest : Obligations.HashRunEndsWithTheDigest := by
  intro s h
  obtain ⟨t, hrun, hdigest, hframe⟩ := h.run_eq
  refine ⟨t, hrun, hdigest, ?_⟩
  rw [hframe]
  exact ⟨rfl, rfl, rfl, rfl, h.idle.2, selectTier_code _ h.tierreq_le _, rfl, rfl, rfl, rfl, rfl, rfl⟩

/-! ### A HASH under way -/

/-- BUSY is 1 and DVALID is 0, as from the acceptance of a HASH until it ends (10_state.md R29, R30). -/
def State.underway (s : State) : Prop := s.busy = true ∧ s.dvalid = false

/-- No move of the engine raises BUSY or clears DVALID (10_state.md R29, R30). -/
theorem EngineMove.underway_before {s t : State} (m : EngineMove s t) (h : t.underway) : s.underway := by
  cases m with
  | fatal => exact nomatch h.1
  | busError => exact nomatch h.1
  | emit => exact nomatch h.1
  | _ => exact h

theorem EngineMove.script_eq {s t : State} (m : EngineMove s t) : t.script = s.script := by cases m <;> rfl

/-- With no host action left a step is a move of the engine, and leaves none. -/
theorem engineMove_of_step {s t : State} (hscript : s.script = []) (h : step s = .next t) :
    EngineMove s t ∧ t.script = [] := by
  have hs : { s with script := [] } = s := by rw [← hscript]
  rw [step_of_engineNext (.inr ⟨hscript, rfl⟩), hs] at h
  have m := engineMove_of_turn h
  exact ⟨m, m.script_eq.trans hscript⟩

/-- A run of some steps that ends in a state begins with a step that does. -/
theorem step_of_run_succ {k : Nat} {s t : State} (h : Sys2Proof.core.run (k + 1) s = .next t) :
    ∃ u, step s = .next u ∧ Sys2Proof.core.run k u = .next t := by
  cases hs : step s with
  | next u => exact ⟨u, rfl, (run_succ_of_step hs k).symm.trans h⟩
  | fault r => cases r
  | refused r =>
    have hrefused : Sys2Proof.core.step s = .refused r := hs
    simp [Host.Core.run, hrefused] at h

/-- The engine alone does not begin a HASH: one that is under way after a run was under way before it. -/
theorem underway_of_run {k : Nat} {s t : State} (hscript : s.script = [])
    (hrun : Sys2Proof.core.run k s = .next t) (ht : t.underway) : s.underway := by
  induction k generalizing s with
  | zero =>
    cases hrun
    exact ht
  | succ k ih =>
    obtain ⟨u, hstep, hrest⟩ := step_of_run_succ hrun
    obtain ⟨m, hscript'⟩ := engineMove_of_step hscript hstep
    exact m.underway_before (ih hscript' hrest)

/-- A HASH that is under way after `j + k` turns of the engine is under way after `j` of them. -/
theorem run_underway {j k : Nat} {s t : State} (hscript : s.script = [])
    (hrun : Sys2Proof.core.run (j + k) s = .next t) (ht : t.underway) :
    ∃ u, Sys2Proof.core.run j s = .next u ∧ u.underway := by
  induction j generalizing s with
  | zero =>
    rw [Nat.zero_add] at hrun
    exact ⟨s, rfl, underway_of_run hscript hrun ht⟩
  | succ j ih =>
    rw [Nat.add_right_comm] at hrun
    obtain ⟨v, hstep, hrest⟩ := step_of_run_succ hrun
    obtain ⟨-, hscript'⟩ := engineMove_of_step hscript hstep
    obtain ⟨u, hu, hunderway⟩ := ih hscript' hrest
    exact ⟨u, (run_succ_of_step hstep j).trans hu, hunderway⟩

/-! ### The number of phase steps -/

/-- DIFFUSE, FOLD and HALVE: the finalizer before EMIT (44_block_driver.md R171). -/
theorem run_diffuse_fold_halve {s : State} (h : MidHash s) (hphase : s.phase = phDiffuse) :
    Sys2Proof.core.run 3 s = .next s.diffused.folded.halved := by
  have h1 : MidHash s.diffused := ⟨h.script, h.result, h.contract⟩
  have h2 : MidHash s.diffused.folded := ⟨h.script, h.result, h.contract⟩
  have diffuse : step s = .next s.diffused :=
    (h.step_eq (by rw [hphase]; rfl)).trans (exec_diffuse h.contract)
  have fold : step s.diffused = .next s.diffused.folded := (h1.step_eq rfl).trans (exec_fold h1.contract)
  have halve : step s.diffused.folded = .next s.diffused.folded.halved :=
    (h2.step_eq rfl).trans (exec_halve h2.contract)
  rw [run_succ_of_step diffuse, run_succ_of_step fold, run_succ_of_step halve]
  rfl

/-- All the phase steps of an issued HASH but EMIT: SELTIER, SEEDX, the blocks, the tail, and three of the finalizer
(44_block_driver.md R183). -/
theorem HashIssued.run_before_emit {s : State} (h : HashIssued s) :
    ∃ t, Sys2Proof.core.run (s.len.toNat / blockBytes s.width.toNat + 6) s.launched = .next t ∧ t.underway := by
  obtain ⟨blk, cursor, reads, hblocks⟩ := h.absorbing.run_eq
  have hsteps : s.len.toNat / blockBytes s.width.toNat + 6 =
      2 + ((s.started.remain.toNat / s.started.bs + 1) + 3) := by
    rw [started_remain, started_bs]
    omega
  have hfinalizer := run_diffuse_fold_halve
    (h.absorbing.midHash_absorbed (s.started.remain.toNat / s.started.bs) blk cursor reads) rfl
  rw [hsteps, run_add (run_seltier_seedx h.midHash_launched rfl)]
  exact ⟨_, (run_add hblocks 3).trans hfinalizer, rfl, rfl⟩

/-- Settles O52: before EMIT the HASH is under way, so it is at every step before; and its run ends idle. -/
theorem hashTakesExactlyItsPhaseSteps : Obligations.HashTakesExactlyItsPhaseSteps := by
  intro s h
  constructor
  · intro k hk
    obtain ⟨t, hrun, ht⟩ := h.run_before_emit
    obtain ⟨j, hj⟩ := Nat.exists_eq_add_of_le (show k ≤ s.len.toNat / blockBytes s.width.toNat + 6 by omega)
    rw [hj] at hrun
    obtain ⟨u, hu, hunderway⟩ := run_underway rfl hrun ht
    exact ⟨u, (run_succ_of_step h.step_eq k).trans hu, hunderway⟩
  · obtain ⟨t, hrun, -, hframe⟩ := h.run_eq
    rw [hashSteps, Nat.add_comm] at hrun
    exact ⟨t, hrun, by rw [hframe], by rw [hframe]; rfl⟩

end Sys2Proof.Machine
end

section
/-!
PROOFS. One instruction of the Block/Padding Driver at a time: CONSUME and DRAIN on backed bytes (44_block_driver.md
R177, R178), and the validation of HASH (R173, R174).
-/

namespace Sys2Proof.Machine

/-! ### CONSUME -/

/-- REMAIN after a full block, with no other assumption about the state (44_block_driver.md R177). -/
theorem remain_sub_bs {s : State} (hblock : s.bs ≤ s.remain.toNat) :
    (s.remain - BitVec.ofNat 64 s.bs).toNat = s.remain.toNat - s.bs := by
  bv_omega

/-- Settles O33: the contract makes the tier's round the scalar one, and REMAIN does not wrap. -/
theorem consumeMixesOneBlock : Obligations.ConsumeMixesOneBlock := by
  intro s contract hblock hbacked
  have hremain := remain_sub_bs hblock
  refine ⟨_, exec_consume_of_backed contract hbacked, tierRound_of_contract contract _ _, rfl, hremain, ?_, rfl⟩
  rw [← hremain]
  rfl

/-! ### DRAIN -/

@[simp] theorem bufferBytes_length (s : State) (a n : Nat) : (s.bufferBytes a n).length = n := by
  simp [State.bufferBytes]

/-- A byte of a backed run as the engine reads it (20_memory.md R62). -/
theorem bufferBytes_getD {s : State} {a n : Nat} (h : backedRun s.mem a n = true) {j : Nat} (hj : j < n) :
    some ((s.bufferBytes a n).getD j 0) = s.bufferByte (a + j) := by
  have hsome : (s.bufferByte (a + j)).isSome = true := by
    rw [bufferByte_isSome]
    exact backedRun_iff.1 h j hj
  obtain ⟨b, hb⟩ := Option.isSome_iff_exists.1 hsome
  simp [State.bufferBytes, hj, hb]

/-- A byte of the scratch block after its first `n` bytes are written (10_state.md R49). -/
theorem entry_scratchWith {n : Nat} (hn : n ≤ 1024) (bytes : List Byte) (blk : Vector Byte 1024) (j : Nat) :
    entry (scratchWith n bytes blk) j = if j < n then bytes.getD j 0 else entry blk j := by
  rw [scratchWith, entry_tabulate]
  by_cases hj : j < 1024
  · rw [if_pos hj]
  · rw [if_neg hj, if_neg (by omega), entry_of_le blk (by omega)]

/-- The bytes written into the scratch block are read back. -/
theorem map_entry_scratchWith {n : Nat} (hn : n ≤ 1024) {bytes : List Byte} (hlen : bytes.length = n)
    (blk : Vector Byte 1024) : (List.range n).map (fun j => entry (scratchWith n bytes blk) j) = bytes := by
  subst hlen
  refine List.ext_getElem (by simp) fun j _ hj => ?_
  simp [entry_scratchWith hn, hj]

theorem bs_le_of_contract {s : State} (contract : s.contractHolds = true) : s.bs ≤ 1024 := by
  rcases bs_of_contract contract with e | e | e <;> omega

/-- A byte of BLK after DRAIN: of the tail, of the padding, or the one before (44_block_driver.md R178, R179). -/
theorem entry_drainBlock_blk {s : State} (contract : s.contractHolds = true) (tail : List Byte) (j : Nat) :
    entry (s.drainBlock tail).blk j =
      if j < s.bs then (if j < tail.length then tail.getD j 0 else padByte tail.length j) else entry s.blk j := by
  refine (entry_scratchWith (bs_le_of_contract contract) _ _ j).trans ?_
  by_cases hj : j < s.bs
  · rw [if_pos hj, if_pos hj, padBlock_getD _ _ hj]
  · rw [if_neg hj, if_neg hj]

/-- The lanes after DRAIN: the scalar round of what BLK then holds (44_block_driver.md R178). -/
theorem drainBlock_h {s : State} (contract : s.contractHolds = true) (tail : List Byte) :
    (s.drainBlock tail).h =
      scalarRound s.n (wordsOf ((List.range s.bs).map fun j => entry (s.drainBlock tail).blk j)) s.h := by
  have hblk : (List.range s.bs).map (fun j => entry (s.drainBlock tail).blk j) = padBlock s.bs tail :=
    map_entry_scratchWith (bs_le_of_contract contract) (padBlock_length s.bs tail) s.blk
  rw [hblk]
  exact tierRound_of_contract contract _ _

/-- Settles O34: the scratch block is the padded tail up to BS, and the round mixes what is written there. -/
theorem drainPadsAndMixesOnce : Obligations.DrainPadsAndMixesOnce := by
  intro s contract htail hbacked
  have hblk := entry_drainBlock_blk contract (s.bufferBytes s.readAddress s.remain.toNat)
  rw [bufferBytes_length] at hblk
  refine ⟨_, exec_drain_of_backed contract hbacked, fun j hj => ?_, fun j hj hj' => ?_, fun j hj => ?_,
    drainBlock_h contract _, rfl, rfl, rfl, rfl⟩
  · rw [hblk, if_pos (by omega), if_pos hj]
    exact bufferBytes_getD hbacked hj
  · rw [hblk, if_pos hj', if_neg (by omega), padByte_toNat]
  · rw [hblk, if_neg (by omega)]

/-! ### The validation of HASH -/

/-- What validation checks, with BUF and LEN as the numbers that their halves hold (44_block_driver.md R173, R174). -/
theorem hashValid_iff (s : State) : s.hashValid = true ↔
    (s.width = 32 ∨ s.width = 64 ∨ s.width = 128 ∨ s.width = 256 ∨ s.width = 512 ∨ s.width = 1024) ∧
    s.tierreq.toNat ≤ 4 ∧
    (s.bufhi.toNat * 2 ^ 32 + s.buflo.toNat) + (s.lenhi.toNat * 2 ^ 32 + s.lenlo.toNat) ≤ 2 ^ 64 := by
  simp only [State.hashValid, legalTierRequest, State.buf, State.len, word_append_toNat, Bool.and_eq_true,
    decide_eq_true_eq, legalWidth_iff, and_assoc]

/-- Settles O10: each cause fails one check of validation. -/
theorem hashRejectsABadConfiguration : Obligations.HashRejectsABadConfiguration := by
  intro s hbusy hfatal hbad
  refine exec_hash_of_invalid ⟨hbusy, hfatal⟩ (Bool.eq_false_iff.2 fun valid => ?_)
  obtain ⟨hwidth, htier, hfits⟩ := (hashValid_iff s).1 valid
  rcases hbad with hwidth' | htier' | hfits'
  · exact hwidth' hwidth
  · omega
  · omega

end Sys2Proof.Machine
end

section
/-!
PROOFS. The Finalizer (45_finalizer.md R200 to R205): what DIFFUSE leaves, and the reference diffusion as a program.
-/

namespace Sys2Proof.Machine

/-! ### The length mix -/

/-- Bits 30:0 of the length are the length modulo 2^31 (45_finalizer.md R201). -/
theorem lengthWord_eq (llen : Addr) : lengthWord llen = BitVec.ofNat 32 (llen.toNat % 2 ^ 31) := by
  have low : llen.toNat % 2 ^ 32 &&& 2 ^ 31 - 1 = llen.toNat % 2 ^ 32 % 2 ^ 31 :=
    Nat.and_two_pow_sub_one_eq_mod _ 31
  refine BitVec.eq_of_toNat_eq ?_
  rw [lengthWord, BitVec.toNat_and, BitVec.toNat_setWidth, BitVec.toNat_ofNat]
  refine low.trans ?_
  omega

/-- Settles O37: the contract completes DIFFUSE and bounds N by the size of a lane, and the lanes before the passes are
those of the length mix. -/
theorem diffuseMixesTheLengthAndDiffuses : Obligations.DiffuseMixesTheLengthAndDiffuses := by
  intro s contract
  refine ⟨lenMix Config.mixConst s.n s.llen s.h, fun l i hl hl' => ?_, exec_diffuse contract⟩
  have hn := n_le_of_contract contract
  have hindex : (i < s.n ∧ i < 64) ↔ i < s.n := ⟨And.left, fun hi => ⟨hi, by omega⟩⟩
  simp only [lenMix, word_lanesWith _ _ _ ⟨hl, hl'⟩, mix1, lengthWord_eq, hindex]

/-! ### The reference diffusion -/

/-- A word of the lanes after the accumulations of a reference pass: the sum `a` of the four words at its index in
lane 1, and `a` added to it in the other lanes (45_finalizer.md R205). -/
def accumulatedWord (h : Lanes) (l i : Nat) : Word :=
  let a := add32 (add32 (add32 (h.word 1 i) (h.word 2 i)) (h.word 3 i)) (h.word 4 i)
  if l = 1 then a else add32 (h.word l i) a

theorem referencePass_eq (c : Word) (n : Nat) (h : Lanes) :
    referencePass c n h = lanesWith n (fun l i => mix1 c (accumulatedWord h l i)) h := rfl

/-- The accumulated word depends on the four words at its index only. -/
theorem accumulatedWord_congr {g h : Lanes} {i : Nat} (e : ∀ l, 1 ≤ l → l ≤ 4 → g.word l i = h.word l i) {l : Nat}
    (hl : 1 ≤ l ∧ l ≤ 4) : accumulatedWord g l i = accumulatedWord h l i := by
  simp only [accumulatedWord, e 1 (by decide) (by decide), e 2 (by decide) (by decide), e 3 (by decide) (by decide),
    e 4 (by decide) (by decide), e l hl.1 hl.2]

/-- An accumulation of words that the command has changes one word of the lanes. -/
theorem op_accumulate_word (c : Word) {n : Nat} (r : DiffuseRun) (dst src : Fin 4) {i : Fin 64} (hi : i.val < n) :
    r.op c n (.accumulate (.word dst i) (.word src i)) =
      { r with
        lanes := r.lanes.setWord (dst.val + 1) i.val
          (add32 (r.lanes.word (dst.val + 1) i.val) (r.lanes.word (src.val + 1) i.val)) } := by
  simp only [DiffuseRun.op, DiffuseRun.get, DiffuseRun.set, if_pos hi]

/-- An accumulation of words with index ≥ N is dropped. -/
theorem op_accumulate_word_of_le (c : Word) {n : Nat} (r : DiffuseRun) (dst src : Fin 4) {i : Fin 64}
    (hi : n ≤ i.val) : r.op c n (.accumulate (.word dst i) (.word src i)) = r := by
  simp only [DiffuseRun.op, DiffuseRun.set, if_neg (Nat.not_lt.2 hi)]

/-- The six accumulations at one word index. -/
theorem foldl_op_referenceOpsAt (c : Word) (n : Nat) (i : Fin 64) (r : DiffuseRun) :
    ((referenceOpsAt i).foldl (fun r o => r.op c n o) r).mixed = r.mixed ∧
    ∀ l j, 1 ≤ l → l ≤ 4 → ((referenceOpsAt i).foldl (fun r o => r.op c n o) r).lanes.word l j =
      if j = i.val ∧ j < n then accumulatedWord r.lanes l j else r.lanes.word l j := by
  by_cases hi : i.val < n
  · simp only [referenceOpsAt, List.foldl_cons, List.foldl_nil, op_accumulate_word c _ _ _ hi, true_and]
    intro l j hl hl'
    by_cases hj : j = i.val
    · subst hj
      obtain rfl | rfl | rfl | rfl : l = 1 ∨ l = 2 ∨ l = 3 ∨ l = 4 := by omega
      all_goals simp [word_setWord, accumulatedWord, hi]
    · simp [word_setWord _ _ _ _ ⟨hl, hl'⟩, hj]
  · have hle : n ≤ i.val := Nat.le_of_not_lt hi
    simp only [referenceOpsAt, List.foldl_cons, List.foldl_nil, op_accumulate_word_of_le c _ _ _ hle, true_and]
    intro l j _ _
    rw [if_neg (by omega)]

/-- The accumulations at a list of word indexes, each index once: those at one index see no other index. -/
theorem foldl_op_flatMap_referenceOpsAt (c : Word) (n : Nat) {is : List (Fin 64)} (hnodup : is.Nodup) (r : DiffuseRun) :
    ((is.flatMap referenceOpsAt).foldl (fun r o => r.op c n o) r).mixed = r.mixed ∧
    ∀ (l : Nat) (j : Fin 64), 1 ≤ l → l ≤ 4 →
      ((is.flatMap referenceOpsAt).foldl (fun r o => r.op c n o) r).lanes.word l j.val =
        if j ∈ is ∧ j.val < n then accumulatedWord r.lanes l j.val else r.lanes.word l j.val := by
  induction is generalizing r with
  | nil => exact ⟨rfl, fun l j _ _ => by simp⟩
  | cons i is ih =>
    obtain ⟨hfresh, hnodup⟩ := List.nodup_cons.1 hnodup
    obtain ⟨hmixed, hword⟩ := foldl_op_referenceOpsAt c n i r
    obtain ⟨hmixed', hword'⟩ := ih hnodup ((referenceOpsAt i).foldl (fun r o => r.op c n o) r)
    rw [List.flatMap_cons, List.foldl_append]
    refine ⟨hmixed'.trans hmixed, fun l j hl hl' => ?_⟩
    rw [hword' l j hl hl']
    by_cases hj : j = i
    · subst hj
      simp [hfresh, hword l j.val hl hl']
    · have hj' : j.val ≠ i.val := fun e => hj (Fin.ext e)
      have same (l : Nat) (hl : 1 ≤ l) (hl' : l ≤ 4) := (hword l j.val hl hl').trans (if_neg (fun e => hj' e.1))
      rw [accumulatedWord_congr same ⟨hl, hl'⟩, same l hl hl']
      simp [hj]

/-- A pass of the reference program is the pass that R205 writes, whatever ran before it. -/
theorem runPass_reference (c : Word) (n : Nat) (r : DiffuseRun) :
    (runPass c n ((List.finRange 64).flatMap referenceOpsAt) r).lanes = referencePass c n r.lanes := by
  obtain ⟨hmixed, hword⟩ := foldl_op_flatMap_referenceOpsAt c n (List.nodup_finRange 64) { r with mixed := [] }
  rw [referencePass_eq]
  refine lanes_ext fun l i hl hl' hi => ?_
  have hacc := hword l ⟨i, hi⟩ hl hl'
  simp only [List.mem_finRange, true_and] at hacc
  simp only [runPass, word_lanesWith _ _ _ ⟨hl, hl'⟩, hmixed, wasMixed, List.any_nil, hacc]
  by_cases hn : i < n <;> simp [hn, hi]

/-- Settles O39: each of the two passes of the reference program is the reference pass. -/
theorem theReferencePassesAreAdmitted : Obligations.TheReferencePassesAreAdmitted := by
  intro c n h
  rw [diffuseReference, runProgram, referenceProgram, runPass_reference, runPass_reference]

end Sys2Proof.Machine
end

section
/-!
PROOFS. The Width-Folder (45_finalizer.md R206 to R216): the provisional words of FOLD, the halvings of HALVE, the
digest of EMIT, and how the digests of the three widths with L = 4 depend on one another.
-/

namespace Sys2Proof.Machine

/-! ### The width fold -/

/-- A table whose first `k` entries are replaced. -/
theorem entry_tabulate_update {w n k : Nat} (hk : k ≤ n) (f : Nat → BitVec w) (v : Vector (BitVec w) n) (i : Nat) :
    entry (tabulate n fun i => if i < k then f i else entry v i) i = if i < k then f i else entry v i := by
  rw [entry_tabulate]
  by_cases hi : i < n
  · rw [if_pos hi]
  · rw [if_neg hi, if_neg (by omega), entry_of_le v (by omega)]

/-- A provisional word after FOLD (45_finalizer.md R208). -/
theorem entry_foldInto {width : Nat} (hwidth : foldWords width ≤ 32) (h : Lanes) (p : Vector Word 32) (i : Nat) :
    entry (foldInto width h p) i = if i < foldWords width then foldWord width h i else entry p i :=
  entry_tabulate_update hwidth _ p i

/-- The exclusive or of the terms of a provisional word, taken from either end. -/
theorem foldl_xor_eq_foldr (f : Nat → Word) (js : List Nat) :
    js.foldl (fun acc j => acc ^^^ f j) 0 = js.foldr (fun j acc => f j ^^^ acc) 0 := by
  rw [← List.foldl_map (f := f) (g := (· ^^^ ·)), List.foldl_eq_foldr, List.foldr_map]

/-- Settles O40: the contract completes FOLD and bounds L by the size of P, and the fold of the model is the exclusive
or of the terms. -/
theorem foldGivesTheProvisionalWords : Obligations.FoldGivesTheProvisionalWords := by
  intro s contract l cs chunk
  obtain ⟨hwidth, -⟩ := (contractHolds_iff s).1 contract
  obtain ⟨-, -, -, -, hl, -⟩ := sizes_of_legalWidth hwidth
  have word := entry_foldInto hl s.h s.p
  refine ⟨s.folded, exec_fold contract, fun i hi => ?_, fun i hi => ?_, rfl, rfl, rfl⟩
  · exact ((word i).trans (if_pos hi)).trans (foldl_xor_eq_foldr _ _)
  · exact (word i).trans (if_neg (Nat.not_lt.2 hi))

/-- The widths with L = 4 have N = 16 and CS = 16 in common (00_scope.md R9, 45_finalizer.md R207). -/
theorem sizes_of_four {width : Nat} (hfold : foldWords width = 4) : laneWords width = 16 ∧ chunkWords width = 16 := by
  have hlane : laneWords width = 16 := by
    unfold foldWords at hfold
    unfold laneWords
    omega
  exact ⟨hlane, by rw [chunkWords, hlane, hfold]⟩

/-- At the widths with L = 4 a chunk is a lane (45_finalizer.md R209). -/
theorem chunkWord_of_four {width : Nat} (hfold : foldWords width = 4) (h : Lanes) (c j : Nat) :
    chunkWord width h c j = h.word (c + 1) j := by
  simp [chunkWord, hfold, Nat.mod_one]

/-- The index pattern of the fold for L = 4 (45_finalizer.md R209). -/
theorem foldWord_of_four {width : Nat} (hfold : foldWords width = 4) (h : Lanes) (i : Nat) :
    foldWord width h i = (List.range 16).foldl
      (fun acc j => acc ^^^ mix (h.word ((i + j) % 4 + 1) j) (h.word ((i + j + 2) % 4 + 1) (15 - j))) 0 := by
  obtain ⟨-, hchunk⟩ := sizes_of_four hfold
  simp only [foldWord, foldTerm, chunkWord_of_four hfold, hfold, hchunk, Nat.reduceDiv, Nat.reduceSub]

/-- At width 256 a chunk is half a lane (45_finalizer.md R207). -/
theorem chunkWord_256 (h : Lanes) (c j : Nat) : chunkWord 256 h c j = h.word (c / 2 + 1) (c % 2 * 8 + j) := rfl

/-- Settles O41: for L = 4 the chunks are the lanes, at width 256 they are half lanes and the terms are listed. -/
theorem foldIndexPatternWrittenOut : Obligations.FoldIndexPatternWrittenOut := by
  intro h
  refine ⟨fun width i hwidth _ => foldWord_of_four ?_ h i, ?_⟩
  · rcases hwidth with rfl | rfl | rfl <;> rfl
  have hfold : foldWords 256 = 8 := rfl
  have hchunk : chunkWords 256 = 8 := rfl
  have start (x : Word) : 0 ^^^ x = x := BitVec.zero_xor
  have terms : List.range 8 = [0, 1, 2, 3, 4, 5, 6, 7] := rfl
  simp only [foldWord, foldTerm, chunkWord_256, hfold, hchunk, terms, List.foldl_cons, List.foldl_nil, start,
    Nat.reduceAdd, Nat.reduceDiv, Nat.reduceMod, Nat.reduceMul, Nat.reduceSub]

/-! ### The halvings -/

/-- A provisional word after one halving (45_finalizer.md R212). -/
theorem entry_halveOnce {count : Nat} (hcount : count ≤ 64) (p : Vector Word 32) (i : Nat) :
    entry (halveOnce count p) i =
      if i < count / 2 then mix (entry p i) (entry p (count - 1 - i)) else entry p i :=
  entry_tabulate_update (by omega) _ p i

/-- The first halving of four words, the one that width 64 has. -/
theorem entry_halveOnce_four (p : Vector Word 32) :
    entry (halveOnce 4 p) 0 = mix (entry p 0) (entry p 3) ∧
    entry (halveOnce 4 p) 1 = mix (entry p 1) (entry p 2) :=
  ⟨entry_halveOnce (by decide) p 0, entry_halveOnce (by decide) p 1⟩

/-- The second halving, of the two words that are left: the one that width 32 has besides. -/
theorem entry_halveOnce_two (p : Vector Word 32) : entry (halveOnce 2 p) 0 = mix (entry p 0) (entry p 1) :=
  entry_halveOnce (by decide) p 0

theorem halveLoop_32 (p : Vector Word 32) :
    halveLoop (digestWords 32) (foldWords 32) (foldWords 32) p = (1, halveOnce 2 (halveOnce 4 p)) := rfl

theorem halveLoop_64 (p : Vector Word 32) :
    halveLoop (digestWords 64) (foldWords 64) (foldWords 64) p = (2, halveOnce 4 p) := rfl

/-- No halving where no more words are live than the digest has. -/
theorem halveLoop_of_le {target count : Nat} (h : count ≤ target) (fuel : Nat) (p : Vector Word 32) :
    halveLoop target fuel count p = (count, p) := by
  cases fuel with
  | zero => rfl
  | succ fuel => rw [halveLoop, if_neg (Nat.not_lt.2 h)]

/-- From width 128 on the fold has as many words as the digest (45_finalizer.md R206). -/
theorem foldWords_eq_digestWords {width : Nat} (h : 128 ≤ width) : foldWords width = digestWords width := by
  unfold foldWords digestWords
  omega

/-- Settles O42: the loop halves twice at width 32, once at width 64, and not at all from 128 on. -/
theorem halveLeavesTheDigestWords : Obligations.HalveLeavesTheDigestWords := by
  intro s contract hcount
  obtain ⟨hwidth, -⟩ := (contractHolds_iff s).1 contract
  have hcount : s.count = foldWords s.lwidth.toNat := hcount
  have hhalved {q : Nat × Vector Word 32} (h : halveLoop (digestWords s.lwidth.toNat) (foldWords s.lwidth.toNat)
      (foldWords s.lwidth.toNat) s.p = q) : s.halved.p = q.2 := by
    rw [State.halved, hcount, h]
  refine ⟨s.halved, exec_halve contract, ?_, rfl, fun h32 => ?_, fun h64 => ?_, fun hwide => ?_, rfl⟩
  · rw [State.halved, hcount, halveLoop_count hwidth s.p]
    rfl
  · rw [h32] at hhalved
    obtain ⟨first, second⟩ := entry_halveOnce_four s.p
    rw [hhalved (halveLoop_32 s.p), entry_halveOnce_two, first, second]
  · rw [h64] at hhalved
    rw [hhalved (halveLoop_64 s.p)]
    exact entry_halveOnce_four s.p
  · exact hhalved (halveLoop_of_le (foldWords_eq_digestWords hwide).le _ s.p)

/-! ### The digest -/

/-- A digest register: a live provisional word, or 0 (45_finalizer.md R216). -/
theorem entry_digestOf (count : Nat) (p : Vector Word 32) (k : Nat) :
    entry (digestOf count p) k = if k < count then entry p k else 0 := by
  rw [digestOf, entry_tabulate]
  by_cases hk : k < 32
  · rw [if_pos hk]
  · rw [if_neg hk, entry_of_le p (by omega), ite_self]

/-- Settles O43: COUNT is the number of digest words, so EMIT publishes those words and zeros. -/
theorem emitPublishesTheDigest : Obligations.EmitPublishesTheDigest := by
  intro s contract hcount
  have register (k : Nat) : entry s.emitted.digest k = if k < s.lwidth.toNat / 32 then entry s.p k else 0 := by
    rw [← hcount]
    exact entry_digestOf s.count s.p k
  refine ⟨s.emitted, exec_emit contract hcount, fun k hk => ?_, fun k hk => ?_, rfl, rfl, rfl, rfl, rfl⟩
  · exact (register k).trans (if_pos hk)
  · exact (register k).trans (if_neg (Nat.not_lt.2 hk))

/-! ### The digests of the widths with L = 4 -/

section
variable (c : Word) (diffuse : Nat → Lanes → Lanes) (bytes : List Byte) (seed : Word)

/-- The provisional words that the fold leaves at width 128. -/
def provisional128 : Vector Word 32 := foldInto 128 (hashLanes c diffuse bytes seed 128) (Vector.replicate 32 0)

/-- For L = 4 the lanes before the fold are the same: N = 16 at each width. -/
theorem hashLanes_of_four {width : Nat} (hfold : foldWords width = 4) :
    hashLanes c diffuse bytes seed width = hashLanes c diffuse bytes seed 128 := by
  have hlane : laneWords width = laneWords 128 := (sizes_of_four hfold).1
  simp only [hashLanes, blockBytes, hlane]

/-- For L = 4 the fold leaves the same words at each width. -/
theorem foldInto_of_four {width : Nat} (hfold : foldWords width = 4) :
    foldInto width (hashLanes c diffuse bytes seed width) (Vector.replicate 32 0) =
      provisional128 c diffuse bytes seed := by
  have hfold' : foldWords 128 = 4 := rfl
  simp only [provisional128, foldInto, hashLanes_of_four c diffuse bytes seed hfold, hfold, hfold',
    foldWord_of_four hfold, foldWord_of_four hfold']

/-- For L = 4 the digest is what the halvings make of those words. -/
theorem hashDigest_of_four {width count : Nat} {p : Vector Word 32} (hfold : foldWords width = 4)
    (hhalve : halveLoop (digestWords width) (foldWords width) (foldWords width) (provisional128 c diffuse bytes seed) =
      (count, p)) : hashDigest c diffuse bytes seed width = digestOf count p := by
  rw [hashDigest_eq_foldedDigest, foldedDigest, foldedWords, foldInto_of_four _ _ _ _ hfold, hhalve]

theorem hashDigest_128 : hashDigest c diffuse bytes seed 128 = digestOf 4 (provisional128 c diffuse bytes seed) :=
  hashDigest_of_four _ _ _ _ rfl (halveLoop_of_le (by decide) _ _)

theorem hashDigest_64 :
    hashDigest c diffuse bytes seed 64 = digestOf 2 (halveOnce 4 (provisional128 c diffuse bytes seed)) :=
  hashDigest_of_four _ _ _ _ rfl (halveLoop_64 _)

theorem hashDigest_32 :
    hashDigest c diffuse bytes seed 32 = digestOf 1 (halveOnce 2 (halveOnce 4 (provisional128 c diffuse bytes seed))) :=
  hashDigest_of_four _ _ _ _ rfl (halveLoop_32 _)

end

/-- Settles O44: the three widths have the same provisional words, and each digest is one halving of the next wider
one. -/
theorem narrowDigestsComeFromTheWideOne : Obligations.NarrowDigestsComeFromTheWideOne := by
  refine ⟨fun c diffuse bytes seed => ?_, rfl⟩
  have live {count k : Nat} (hk : k < count) (p : Vector Word 32) : entry (digestOf count p) k = entry p k :=
    (entry_digestOf count p k).trans (if_pos hk)
  obtain ⟨first, second⟩ := entry_halveOnce_four (provisional128 c diffuse bytes seed)
  simp only [hashDigest_128, hashDigest_64, hashDigest_32]
  refine ⟨fun i hi => ?_, ?_, ?_, ?_⟩
  · rw [live hi]
    exact (entry_foldInto (by decide) _ _ i).trans (if_pos hi)
  · rw [live (by decide), live (by decide), live (by decide), first]
  · rw [live (by decide), live (by decide), live (by decide), second]
  · rw [live (by decide), live (by decide), live (by decide), entry_halveOnce_two]

end Sys2Proof.Machine
end

section
/-!
PROOFS. The hex string of a digest (45_finalizer.md R218, R219): parsing gives back the words.
-/

namespace Sys2Proof.Machine

/-! ### One word -/

theorem hexValue_hexDigit {v : Nat} (hv : v < 16) : hexValue (hexDigit v) = some v := by
  revert v
  decide

/-- The last `m` characters of `hex8 w`: the digits of the low `4 * m` bits. -/
def lowDigits (w : Word) : Nat → List Char
  | 0 => []
  | m + 1 => hexDigit (w.extractLsb' (4 * m) 4).toNat :: lowDigits w m

theorem hex8_eq_lowDigits (w : Word) : hex8 w = lowDigits w 8 := rfl

theorem hex8_length (w : Word) : (hex8 w).length = 8 := rfl

/-- Appending the next four bits below those above `4 * (m + 1)` gives those above `4 * m`. -/
theorem append_nibble (w : Word) (m : Nat) :
    w >>> (4 * (m + 1)) <<< 4 ||| BitVec.ofNat 32 (w.extractLsb' (4 * m) 4).toNat = w >>> (4 * m) := by
  rw [BitVec.ofNat_toNat]
  refine BitVec.eq_of_getLsbD_eq fun i hi => ?_
  by_cases hlow : i < 4
  · simp [hlow, hi]
  · have hindex : 4 * (m + 1) + (i - 4) = 4 * m + i := by omega
    simp [hlow, hi, hindex]

/-- Parsing goes on from the high bits of a word to the whole word. -/
theorem parseDigits_lowDigits (w : Word) (m : Nat) : parseDigits (lowDigits w m) (w >>> (4 * m)) = some w := by
  induction m with
  | zero => simp [lowDigits, parseDigits]
  | succ m ih =>
    have hdigit : hexValue (hexDigit (w.extractLsb' (4 * m) 4).toNat) = some (w.extractLsb' (4 * m) 4).toNat :=
      hexValue_hexDigit (w.extractLsb' (4 * m) 4).isLt
    simp only [lowDigits, parseDigits, hdigit, append_nibble, ih]

theorem parseDigits_hex8 (w : Word) : parseDigits (hex8 w) 0 = some w := by
  have high : w >>> (4 * 8) = 0 := BitVec.ushiftRight_eq_zero (by decide)
  rw [hex8_eq_lowDigits, ← high]
  exact parseDigits_lowDigits w 8

/-! ### A list of words -/

/-- `parseHex` takes the eight characters of a word first (45_finalizer.md R219). -/
theorem parseHex_append {cs rest : List Char} {w : Word} {ws : List Word} (hlength : cs.length = 8)
    (hdigits : parseDigits cs 0 = some w) (hrest : parseHex rest = some ws) :
    parseHex (cs ++ rest) = some (w :: ws) := by
  match cs, hlength with
  | [c0, c1, c2, c3, c4, c5, c6, c7], _ =>
    simp only [List.cons_append, List.nil_append, parseHex, hdigits, hrest]

/-- Settles O59, by induction on the words: eight characters make the first one. -/
theorem hexDigestRoundTrips : Obligations.HexDigestRoundTrips := by
  intro d
  induction d with
  | nil => exact ⟨rfl, rfl⟩
  | cons w d ih =>
    obtain ⟨hlength, hparse⟩ := ih
    have hcons : hexDigest (w :: d) = hex8 w ++ hexDigest d := List.flatMap_cons
    rw [hcons]
    refine ⟨?_, parseHex_append (hex8_length w) (parseDigits_hex8 w) hparse⟩
    rw [List.length_append, hex8_length, hlength, List.length_cons]
    omega

end Sys2Proof.Machine
end

section
/-!
PROOFS. The instruction of the Tier Selector (46_tier_selector.md R233): SELTIER in a HASH whose latched configuration is
legal.
-/

namespace Sys2Proof.Machine

/-- Settles O28: a legal request is at most 4, so the selected tier fits the two bits of STATUS.TIER; the frame is that
of `State.tierSelected`. -/
theorem seltierRecordsTheTier : Obligations.SeltierRecordsTheTier := by
  intro s contract
  obtain ⟨-, hrequest⟩ := (contractHolds_iff s).1 contract
  have htier : s.tierSelected.tier.toNat = selectTier capabilities s.ltier.toNat s.lbuf :=
    selectTier_code capabilities hrequest s.lbuf
  exact ⟨s.tierSelected, exec_seltier contract, htier, rfl, rfl⟩

end Sys2Proof.Machine
end

section
/-!
PROOFS. The exceptions (60_exceptions.md): what is dropped or rejected at the interface (R245, R246, R248), the bus
error that ends a HASH (R249), and the fatal state: what enters it, that only reset leaves it, that no run reaches it
(R250).
-/

namespace Sys2Proof.Machine

/-! ### Commands and writes that are dropped or rejected -/

/-- Every command begins with the checks of 60_exceptions.md R245 lines 1 and 2. -/
theorem exec_eq_commandStep {i : Instr} (hi : i = .mix ∨ i = .mixc ∨ i = .hash) (s : State) :
    ∃ effect, exec i s = commandStep s effect := by
  rcases hi with rfl | rfl | rfl <;> exact ⟨_, rfl⟩

/-- Settles O12: the checks decide by BUSY, then by FATAL, before any effect. -/
theorem commandsAreDroppedWhileBusyOrFatal : Obligations.CommandsAreDroppedWhileBusyOrFatal := by
  intro s i hi
  obtain ⟨effect, heffect⟩ := exec_eq_commandStep hi s
  rw [heffect]
  refine ⟨fun hbusy => if_pos hbusy, fun hbusy hfatal => ?_⟩
  simp [commandStep, hbusy, hfatal]

/-- Settles O13: a word that decodes is one of the three excluded, so the write is an illegal command. -/
theorem illegalCommandSetsResultOnly : Obligations.IllegalCommandSetsResultOnly := by
  intro s c rest hscript hbusy hfatal hmix hmixc hhash
  rw [step_of_write hscript rfl, show regAt 0x000 = .cmd from rfl, writeReg_cmd]
  rcases writeCmd_cases { s with script := rest } c with
    ⟨hbusy', _⟩ | ⟨_, hfatal', _⟩ | ⟨_, _, _, e⟩ | ⟨_, _, i, hi, _⟩
  · cases hbusy.symm.trans hbusy'
  · cases hfatal.symm.trans hfatal'
  · exact e
  · rcases command_of_decode hi with ⟨h, _⟩ | ⟨h, _⟩ | ⟨h, _⟩
    · exact absurd h hmix
    · exact absurd h hmixc
    · exact absurd h hhash

theorem writeReg_of_busy {s : State} (hbusy : s.busy = true) (r : Reg) (v : Word) :
    writeReg s r v = .next s.raiseProtocolError := if_pos hbusy

/-- Settles O14: BUSY is looked at before the register that the offset names. -/
theorem registerWriteWhileBusySetsPerr : Obligations.RegisterWriteWhileBusySetsPerr := by
  intro s offset v rest hscript haligned hbusy
  rw [step_of_write hscript haligned]
  exact writeReg_of_busy (s := { s with script := rest }) hbusy _ v

/-! ### The bus error -/

theorem backedRun_eq_false {m : Memory} {a n j : Nat} (hj : j < n) (h : m.backed (a + j) = false) :
    backedRun m a n = false :=
  Bool.eq_false_iff.2 fun hbacked => by cases h.symm.trans (backedRun_iff.1 hbacked j hj)

/-- A HASH that ends with a bus error: of its scratch and of the port log, `blk` and `reads` are left. -/
def State.abortedWith (s : State) (blk : Vector Byte 1024) (reads : List PortRead) : State :=
  State.raiseBusError { s with blk := blk, reads := reads }

/-- CONSUME without its bytes executes no round and writes no scratch (60_exceptions.md R249). -/
theorem exec_consume_aborts {s : State} (contract : s.contractHolds = true)
    (h : backedRun s.mem s.readAddress s.bs = false) :
    ∃ reads, exec .consume s = .next (s.abortedWith s.blk reads) := by
  obtain ⟨b, before, hread⟩ := readBuffer_of_not_backed h
  have hexec : exec .consume s = _ := phaseStep_of_contract contract _
  rw [hread] at hexec
  exact ⟨_, hexec⟩

/-- DRAIN without its bytes executes no round; the bytes before the failing one are in BLK (60_exceptions.md R249). -/
theorem exec_drain_aborts {s : State} (contract : s.contractHolds = true)
    (h : backedRun s.mem s.readAddress s.remain.toNat = false) :
    ∃ blk reads, exec .drain s = .next (s.abortedWith blk reads) := by
  obtain ⟨b, before, hread⟩ := readBuffer_of_not_backed h
  have hexec : exec .drain s = _ := phaseStep_of_contract contract _
  rw [hread] at hexec
  exact ⟨_, _, hexec⟩

/-- Settles O35: the step aborts, and inside a HASH there is no digest and no fatal state to begin with. -/
theorem busErrorEndsTheHash : Obligations.BusErrorEndsTheHash := by
  intro s hs i a hstep hbyte
  obtain ⟨hin, blk, reads, hexec⟩ : InHash s ∧ ∃ blk reads, exec i s = .next (s.abortedWith blk reads) := by
    rcases hstep with ⟨hphase, rfl, ha⟩ | ⟨hphase, rfl, ha⟩
    · have hin := hs.inHash hphase (by decide)
      exact ⟨hin, s.blk, exec_consume_aborts hin.contract (backedRun_eq_false ha hbyte)⟩
    · have hin := hs.inHash hphase (by decide)
      exact ⟨hin, exec_drain_aborts hin.contract (backedRun_eq_false ha hbyte)⟩
  have hdigest (k : Nat) : entry (s.abortedWith blk reads).digest k = 0 := by
    show entry s.digest k = 0
    rw [hin.noDigest, entry_replicate, ite_self]
  exact ⟨_, hexec, rfl, rfl, rfl, hin.dvalid, fun k _ => hdigest k, rfl, ⟨rfl, hin.notFatal⟩, rfl⟩

/-! ### What enters the fatal state -/

theorem contractHolds_eq_false {s : State} (h : legalWidth s.lwidth = false ∨ 5 ≤ s.ltier.toNat) :
    s.contractHolds = false := by
  refine Bool.eq_false_iff.2 fun contract => ?_
  obtain ⟨hwidth, htier⟩ := (contractHolds_iff s).1 contract
  rcases h with h | h
  · cases h.symm.trans hwidth
  · omega

/-- EMIT finds a wrong COUNT (45_finalizer.md R216); a broken contract has the same outcome. -/
theorem exec_emit_of_wrong_count {s : State} (hcount : s.count ≠ digestWords s.lwidth.toNat) :
    exec .emit s = .next s.raiseFatal := by
  rcases phaseStep_cases s _ with ⟨_, e⟩ | ⟨_, e⟩
  · exact e
  · exact e.trans (if_neg hcount)

/-- Settles O45: the contract is checked before the effect of every phase step, and COUNT in the effect of EMIT. -/
theorem brokenContractIsFatal : Obligations.BrokenContractIsFatal := by
  refine fun s i => ⟨fun hbroken hi => ?_, exec_emit_of_wrong_count⟩
  obtain ⟨p, hp⟩ : ∃ p, encode i = .phase p := by
    rcases hi with rfl | rfl | rfl | rfl | rfl | rfl | rfl | rfl <;> exact ⟨_, rfl⟩
  exact exec_of_broken_contract (hp ▸ decode_encode i) (contractHolds_eq_false hbroken)

/-! ### In the fatal state -/

/-- From `s` to `t` nothing is computed, published or read from the buffer, and the outcome in STATUS is kept. -/
structure Halted (s t : State) : Prop where
  fatal : t.fatal = s.fatal
  busy : t.busy = s.busy
  phase : t.phase = s.phase
  result : t.result = s.result
  dvalid : t.dvalid = s.dvalid
  digest : t.digest = s.digest
  res : t.res = s.res
  lanes : t.h = s.h
  reads : t.reads = s.reads

/-- The engine takes no step in FATAL (10_state.md R34). -/
theorem halted_of_engineTurn {s t : State} (hphase : s.phase = phFatal) (hresult : s.result = resErrFatal)
    (h : engineTurn s = .next t) : Halted s t := by
  have hrest : engineTurn s = .next s := engineTurn_of_rest (by rw [hresult]; decide) (.inr hphase)
  cases hrest.symm.trans h
  constructor <;> rfl

/-- In the fatal state no command has an effect; of the host's other actions only RST touches the outcome
(60_exceptions.md R245). -/
theorem HostMove.halted {s t : State} {e : Event} (m : HostMove s e t) (he : e ≠ .rst) (hfatal : s.fatal = true)
    (hbusy : s.busy = false) : Halted s t := by
  have hidle : ¬ s.idle := fun idle => by cases hfatal.symm.trans idle.2
  cases m with
  | dropped hbusy' => cases hbusy.symm.trans hbusy'
  | rejected idle | computed idle | accepted idle => exact absurd idle hidle
  | store a v => rw [storeByte_frame]; constructor <;> rfl
  | rst => exact absurd rfl he
  | ignored | configured | observed => constructor <;> rfl

/-- Settles O46: the engine rests, and no action of the host but RST does more than configure, observe or store. -/
theorem onlyResetLeavesTheFatalState : Obligations.OnlyResetLeavesTheFatalState := by
  intro s t hfatal hbusy hphase hresult hstep hnot
  obtain ⟨rest, halted⟩ : ∃ rest, Halted { s with script := rest } t := by
    rcases step_inversion hstep with ⟨rest, hnext, _⟩ | ⟨e, rest, hscript, m⟩
    · exact ⟨rest, halted_of_engineTurn hphase hresult ((step_of_engineNext hnext).symm.trans hstep)⟩
    · exact ⟨rest, m.halted (ne_rst_of_notReset hnot hscript) hfatal hbusy⟩
  exact ⟨halted.fatal.trans hfatal, halted.busy.trans hbusy, halted.phase.trans hphase,
    halted.result.trans hresult, halted.dvalid, halted.digest, halted.res, halted.lanes, halted.reads⟩

/-! ### No run reaches the fatal state -/

/-- The invariant holds along every run. -/
theorem Consistent.of_run {k : Nat} {s t : State} (h : Consistent s) (hrun : Sys2Proof.core.run k s = .next t) :
    Consistent t := by
  induction k generalizing s with
  | zero =>
    cases hrun
    exact h
  | succ k ih =>
    obtain ⟨u, hstep, hrest⟩ := step_of_run_succ hrun
    exact ih (everyStepKeepsConsistency s u h hstep) hrest

/-- Settles O49: a run ends in a consistent state, and the codes of one are below those of the fatal state. -/
theorem theFatalStateIsUnreachable : Obligations.TheFatalStateIsUnreachable := by
  intro k s t hs hrun
  have ht : Consistent t := hs.of_run hrun
  refine ⟨ht.notFatal, fun hresult => ?_, fun hphase => ?_⟩
  · exact absurd ht.result (by rw [hresult]; decide)
  · exact absurd ht.phase (by rw [hphase]; decide)

end Sys2Proof.Machine
end
